-- ==== Sys2Proof/Word.lean ====
section
/-! DEFINITION. The words of RDEC: bytes, 16-bit windows and 32-bit registers (spec/00_scope.md R5 to R7). -/

namespace Sys2Proof

/-- An 8-bit value, the unit of the register space (R50, R56). -/
abbrev Byte := BitVec 8

/-- A 16-bit pattern: a field window, an operand register or a command word (R7 `u16`, R80). -/
abbrev Half := BitVec 16

/-- A 32-bit pattern; an `s32` register is one read with `BitVec.toInt` (R7). -/
abbrev Wide := BitVec 32

/-- Sixteen bytes: a key, a plaintext or an AES state (R25, R27, R28, R182). -/
abbrev Block := Vector Byte 16

/-- A 256-entry byte table, written as the spec prints it: 16 rows of 16 (R184, R185, R191). -/
abbrev ByteTable := Vector (Vector Byte 16) 16

end Sys2Proof
end

