-- ==== Sys2Proof/Syntax.lean ====
section
/-! DEFINITION. The command set of RDEC: one constructor per row of the opcode map
(spec/30_encoding.md R88, spec/opcode_table.json), the names of formats and fields, and the host's actions. -/

namespace Sys2Proof

/-- The 22 commands of R88. No command word has an operand field: ARG is part of the encoding (R87). -/
inductive Instr where
  | nop
  | clear
  | decU16
  | decS16
  | decBm
  | select
  | constructV3
  | constructV5
  | constructC5
  | constructV8
  | readTemp
  | readHumid
  | readPress
  | readAccx
  | readAccy
  | readAccz
  | readBatt
  | readTxpwr
  | readMove
  | readSeq
  | readAddr
  | verify
  deriving DecidableEq, Repr

/-- The four wire formats (R3). -/
inductive Format where
  | v3
  | v5
  | c5
  | v8
  deriving DecidableEq, Repr

/-- The eleven fields a READ names, in the order of their ids (R86). -/
inductive Field where
  | temp
  | humid
  | press
  | accx
  | accy
  | accz
  | batt
  | txpwr
  | move
  | seq
  | addr
  deriving DecidableEq, Repr

/-- The signed or unsigned reading of a 16-bit pattern (R100). -/
inductive Sign where
  | unsigned
  | signed
  deriving DecidableEq, Repr

/-- What the host can do, exactly the actions of spec/70_reset_and_hazards.md R266: a bus read, a bus write
(to any address; the address decides what it does) and `rst`. -/
inductive HostAction where
  | read (addr : Byte)
  | write (addr data : Byte)
  | reset
  deriving DecidableEq, Repr

end Sys2Proof
end

