-- ==== Sys2Proof/WellFormed.lean ====
section
/-! DEFINITION. When a command word {OP, ARG} is legal (spec/30_encoding.md R83 to R86, R88): four checks, one
for each class of illegal word that R89 names. An `Instr` has no operand, so every `Instr` is well formed. -/

namespace Sys2Proof

/-- The opcodes that take no argument (R84). -/
def argumentlessOps : List Byte := [0x00, 0x01, 0x10, 0x11, 0x12, 0x20, 0x31]

/-- The opcode of CONSTRUCT, whose ARG is a format tag (R85). -/
abbrev constructOp : Byte := 0x21

/-- The opcode of READ, whose ARG is a field id (R86). -/
abbrev readOp : Byte := 0x30

/-- OP is one of the nine assigned opcodes (R88). -/
def opAssigned (op : Byte) : Bool := argumentlessOps.contains op || op == constructOp || op == readOp

/-- An argument-less opcode has ARG = 0x00 (R84). -/
def argumentAbsent (op arg : Byte) : Bool := !argumentlessOps.contains op || arg == 0x00

/-- The ARG of CONSTRUCT is one of the four tags (R85). -/
def argumentIsTag (op arg : Byte) : Bool := op != constructOp || [0x03, 0x05, 0xC5, 0x08].contains arg

/-- The ARG of READ is a field id, 0 to 10 (R86). -/
def argumentIsField (op arg : Byte) : Bool := op != readOp || decide (arg.toNat ≤ 10)

/-- `Legal(W)` of R83 for W = {op, arg}. -/
def wordLegal (op arg : Byte) : Bool :=
  opAssigned op && argumentAbsent op arg && argumentIsTag op arg && argumentIsField op arg

/-- Every command is well formed: it has no operand that could be out of range (R87). -/
def Instr.wellFormed : Instr → Bool
  | .nop | .clear => true
  | .decU16 | .decS16 | .decBm => true
  | .select | .constructV3 | .constructV5 | .constructC5 | .constructV8 => true
  | .readTemp | .readHumid | .readPress | .readAccx | .readAccy | .readAccz => true
  | .readBatt | .readTxpwr | .readMove | .readSeq | .readAddr => true
  | .verify => true

end Sys2Proof
end

