-- ==== Sys2Proof/Decode.lean ====
section
/-! DEFINITION. Decoding a command word (spec/30_encoding.md R80, R83 to R89), total on all 65536 words and rejecting
by name; after it the encoder (R88) and the disassembly and the printed form of a CMD write (R93). -/

namespace Sys2Proof

/-- Why a word is illegal: the classes of R89. Each gives the same error completion, ILLEGAL_COMMAND (R232). -/
inductive Illegal where
  /-- The opcode is not in the opcode map (R83, R89). -/
  | unassignedOp (op : Byte)
  /-- An argument-less opcode with a nonzero ARG (R84). -/
  | argNotZero (op arg : Byte)
  /-- CONSTRUCT with an ARG that is no recognized tag (R85). -/
  | notATag (arg : Byte)
  /-- READ with an ARG above 10 (R86). -/
  | notAField (arg : Byte)
  deriving DecidableEq, Repr

/-- OP, bits 15:8 of W (R80). -/
def wordOp (w : Half) : Byte := w.extractLsb' 8 8

/-- ARG, bits 7:0 of W (R80). -/
def wordArg (w : Half) : Byte := w.extractLsb' 0 8

/-- W = {op, arg} (R80). -/
def commandWord (op arg : Byte) : Half := op ++ arg

/-- An opcode that requires ARG = 0x00 (R84). -/
def decodeArgumentless (op arg : Byte) (i : Instr) : Except Illegal Instr :=
  if arg = 0x00 then .ok i else .error (.argNotZero op arg)

/-- The ARG of CONSTRUCT (R85). -/
def decodeConstruct (arg : Byte) : Except Illegal Instr :=
  if arg = 0x03 then .ok .constructV3
  else if arg = 0x05 then .ok .constructV5
  else if arg = 0xC5 then .ok .constructC5
  else if arg = 0x08 then .ok .constructV8
  else .error (.notATag arg)

/-- The ARG of READ (R86). -/
def decodeRead (arg : Byte) : Except Illegal Instr :=
  match arg.toNat with
  | 0 => .ok .readTemp
  | 1 => .ok .readHumid
  | 2 => .ok .readPress
  | 3 => .ok .readAccx
  | 4 => .ok .readAccy
  | 5 => .ok .readAccz
  | 6 => .ok .readBatt
  | 7 => .ok .readTxpwr
  | 8 => .ok .readMove
  | 9 => .ok .readSeq
  | 10 => .ok .readAddr
  | _ => .error (.notAField arg)

/-- OP selects the row or the family of rows, then ARG the row (the checks R88 names). -/
def decodeFields (op arg : Byte) : Except Illegal Instr :=
  if op = 0x00 then decodeArgumentless op arg .nop
  else if op = 0x01 then decodeArgumentless op arg .clear
  else if op = 0x10 then decodeArgumentless op arg .decU16
  else if op = 0x11 then decodeArgumentless op arg .decS16
  else if op = 0x12 then decodeArgumentless op arg .decBm
  else if op = 0x20 then decodeArgumentless op arg .select
  else if op = 0x21 then decodeConstruct arg
  else if op = 0x30 then decodeRead arg
  else if op = 0x31 then decodeArgumentless op arg .verify
  else .error (.unassignedOp op)

/-- The command a word selects, or why it selects none (R83). -/
def decode (w : Half) : Except Illegal Instr := decodeFields (wordOp w) (wordArg w)

/-- The word of a command: OP and ARG of its row in R88. -/
def encode : Instr → Half
  | .nop => commandWord 0x00 0x00
  | .clear => commandWord 0x01 0x00
  | .decU16 => commandWord 0x10 0x00
  | .decS16 => commandWord 0x11 0x00
  | .decBm => commandWord 0x12 0x00
  | .select => commandWord 0x20 0x00
  | .constructV3 => commandWord 0x21 0x03
  | .constructV5 => commandWord 0x21 0x05
  | .constructC5 => commandWord 0x21 0xC5
  | .constructV8 => commandWord 0x21 0x08
  | .readTemp => commandWord 0x30 0x00
  | .readHumid => commandWord 0x30 0x01
  | .readPress => commandWord 0x30 0x02
  | .readAccx => commandWord 0x30 0x03
  | .readAccy => commandWord 0x30 0x04
  | .readAccz => commandWord 0x30 0x05
  | .readBatt => commandWord 0x30 0x06
  | .readTxpwr => commandWord 0x30 0x07
  | .readMove => commandWord 0x30 0x08
  | .readSeq => commandWord 0x30 0x09
  | .readAddr => commandWord 0x30 0x0A
  | .verify => commandWord 0x31 0x00

/-- The 16-bit word W of an instruction whose `nbits` low bits are `w` and whose other bits are 0. RDEC stores no
instruction in memory, so W has no byte order: OP is bits 15:8 and ARG bits 7:0, as the opcode table numbers them. -/
def tableWord (nbits w : Nat) : Half := BitVec.ofNat 16 (w % 2 ^ nbits)

/-- The instruction the decoder reads from a word given as the opcode table numbers its bits. -/
def decodeTableWord (nbits w : Nat) : Option Instr := (decode (tableWord nbits w)).toOption

/-- The mnemonic of a command's row (R88). -/
def Instr.mnemonic : Instr → String
  | .nop => "NOP"
  | .clear => "CLEAR"
  | .decU16 => "DEC.U16"
  | .decS16 => "DEC.S16"
  | .decBm => "DEC.BM"
  | .select => "SELECT"
  | .constructV3 => "CONSTRUCT.V3"
  | .constructV5 => "CONSTRUCT.V5"
  | .constructC5 => "CONSTRUCT.C5"
  | .constructV8 => "CONSTRUCT.V8"
  | .readTemp => "READ.TEMP"
  | .readHumid => "READ.HUMID"
  | .readPress => "READ.PRESS"
  | .readAccx => "READ.ACCX"
  | .readAccy => "READ.ACCY"
  | .readAccz => "READ.ACCZ"
  | .readBatt => "READ.BATT"
  | .readTxpwr => "READ.TXPWR"
  | .readMove => "READ.MOVE"
  | .readSeq => "READ.SEQ"
  | .readAddr => "READ.ADDR"
  | .verify => "VERIFY"

/-- One upper-case hexadecimal digit. -/
def hexDigit (n : Nat) : String :=
  ["0", "1", "2", "3", "4", "5", "6", "7", "8", "9", "A", "B", "C", "D", "E", "F"].getD n ""

/-- The four hexadecimal digits of a word. -/
def hexWord (w : Half) : String :=
  hexDigit (w.toNat / 0x1000) ++ hexDigit (w.toNat / 0x100 % 0x10) ++ hexDigit (w.toNat / 0x10 % 0x10) ++
    hexDigit (w.toNat % 0x10)

/-- The disassembly of a word: its row's mnemonic, or `.illegal 0xWWWW` where no row has it (R93). -/
def disassemble (w : Half) : String :=
  match decode w with
  | .ok i => i.mnemonic
  | .error _ => ".illegal 0x" ++ hexWord w

/-- The printed form of the CMD write that forms the word W: `CMD <mnemonic>`. A word with no row has no mnemonic, and its
write prints as the word's disassembly, as spec/95_test_vectors.md P3, line 18, has it (R93). -/
def printCommand (w : Half) : String :=
  match decode w with
  | .ok i => "CMD " ++ i.mnemonic
  | .error _ => disassemble w

end Sys2Proof
end

