-- ==== Sys2Proof/Config.lean ====
section
/-! DEFINITION. What an implementation of RDEC fixes (spec/00_scope.md R4) and the one free value. -/

namespace Sys2Proof

/-- P_CHECK_ORDER (R4, R127): which check of CONSTRUCT.V8 comes first. -/
inductive CheckOrder where
  | formatFirst
  | credentialsFirst
  deriving DecidableEq, Repr

/-- One answer of an implementation's AES128_DEC: the plaintext it gives for one key and one ciphertext block. -/
structure CipherAnswer where
  key : Block
  block : Block
  plain : Block
  deriving DecidableEq, Repr

/-- The parameters of R4 that a command's outcome can depend on and that the spec leaves to the implementation.
No step changes them (log entry 3). T_CMD is time and is left out (R272, log entry 11). -/
structure Config where
  /-- P_CHECK_ORDER (R127). -/
  checkOrder : CheckOrder
  /-- CRC8_TABLE (R191). -/
  crcTable : ByteTable
  /-- AES128_DEC (R181): the answers in which the implementation's function differs from the default, so the default is
  the empty list. Keys and blocks are finite, so a list gives every function (log entry 4). -/
  cipher : List CipherAnswer
  deriving DecidableEq, Repr

/-- The byte that each register address holds before the first assertion of `rst`: "the value of every register is
unspecified" (spec/70_reset_and_hazards.md R262). A free value: nothing fixes it (log entry 7). -/
opaque Config.powerUp : Nat → Byte

end Sys2Proof
end

