-- ==== Sys2Proof/Machine/Aes.lean ====
section
/-! DEFINITION. AES128_DEC, the AES-128 inverse cipher (spec/44_v8_crypto.md R181 to R189): the default of the
parameter AES128_DEC of R4; and the parameter itself (log entry 4). -/

namespace Sys2Proof.Machine

/-- The entry in row x[7:4] and column x[3:0] of a table (R184). -/
def tableAt (t : ByteTable) (x : Byte) : Byte :=
  (t[x.toNat / 16]'(by have := x.isLt; omega))[x.toNat % 16]

/-- The forward S-box (R184). -/
def sbox : ByteTable :=
  #v[#v[0x63, 0x7C, 0x77, 0x7B, 0xF2, 0x6B, 0x6F, 0xC5, 0x30, 0x01, 0x67, 0x2B, 0xFE, 0xD7, 0xAB, 0x76],
    #v[0xCA, 0x82, 0xC9, 0x7D, 0xFA, 0x59, 0x47, 0xF0, 0xAD, 0xD4, 0xA2, 0xAF, 0x9C, 0xA4, 0x72, 0xC0],
    #v[0xB7, 0xFD, 0x93, 0x26, 0x36, 0x3F, 0xF7, 0xCC, 0x34, 0xA5, 0xE5, 0xF1, 0x71, 0xD8, 0x31, 0x15],
    #v[0x04, 0xC7, 0x23, 0xC3, 0x18, 0x96, 0x05, 0x9A, 0x07, 0x12, 0x80, 0xE2, 0xEB, 0x27, 0xB2, 0x75],
    #v[0x09, 0x83, 0x2C, 0x1A, 0x1B, 0x6E, 0x5A, 0xA0, 0x52, 0x3B, 0xD6, 0xB3, 0x29, 0xE3, 0x2F, 0x84],
    #v[0x53, 0xD1, 0x00, 0xED, 0x20, 0xFC, 0xB1, 0x5B, 0x6A, 0xCB, 0xBE, 0x39, 0x4A, 0x4C, 0x58, 0xCF],
    #v[0xD0, 0xEF, 0xAA, 0xFB, 0x43, 0x4D, 0x33, 0x85, 0x45, 0xF9, 0x02, 0x7F, 0x50, 0x3C, 0x9F, 0xA8],
    #v[0x51, 0xA3, 0x40, 0x8F, 0x92, 0x9D, 0x38, 0xF5, 0xBC, 0xB6, 0xDA, 0x21, 0x10, 0xFF, 0xF3, 0xD2],
    #v[0xCD, 0x0C, 0x13, 0xEC, 0x5F, 0x97, 0x44, 0x17, 0xC4, 0xA7, 0x7E, 0x3D, 0x64, 0x5D, 0x19, 0x73],
    #v[0x60, 0x81, 0x4F, 0xDC, 0x22, 0x2A, 0x90, 0x88, 0x46, 0xEE, 0xB8, 0x14, 0xDE, 0x5E, 0x0B, 0xDB],
    #v[0xE0, 0x32, 0x3A, 0x0A, 0x49, 0x06, 0x24, 0x5C, 0xC2, 0xD3, 0xAC, 0x62, 0x91, 0x95, 0xE4, 0x79],
    #v[0xE7, 0xC8, 0x37, 0x6D, 0x8D, 0xD5, 0x4E, 0xA9, 0x6C, 0x56, 0xF4, 0xEA, 0x65, 0x7A, 0xAE, 0x08],
    #v[0xBA, 0x78, 0x25, 0x2E, 0x1C, 0xA6, 0xB4, 0xC6, 0xE8, 0xDD, 0x74, 0x1F, 0x4B, 0xBD, 0x8B, 0x8A],
    #v[0x70, 0x3E, 0xB5, 0x66, 0x48, 0x03, 0xF6, 0x0E, 0x61, 0x35, 0x57, 0xB9, 0x86, 0xC1, 0x1D, 0x9E],
    #v[0xE1, 0xF8, 0x98, 0x11, 0x69, 0xD9, 0x8E, 0x94, 0x9B, 0x1E, 0x87, 0xE9, 0xCE, 0x55, 0x28, 0xDF],
    #v[0x8C, 0xA1, 0x89, 0x0D, 0xBF, 0xE6, 0x42, 0x68, 0x41, 0x99, 0x2D, 0x0F, 0xB0, 0x54, 0xBB, 0x16]]

/-- The inverse S-box (R185). -/
def invSbox : ByteTable :=
  #v[#v[0x52, 0x09, 0x6A, 0xD5, 0x30, 0x36, 0xA5, 0x38, 0xBF, 0x40, 0xA3, 0x9E, 0x81, 0xF3, 0xD7, 0xFB],
    #v[0x7C, 0xE3, 0x39, 0x82, 0x9B, 0x2F, 0xFF, 0x87, 0x34, 0x8E, 0x43, 0x44, 0xC4, 0xDE, 0xE9, 0xCB],
    #v[0x54, 0x7B, 0x94, 0x32, 0xA6, 0xC2, 0x23, 0x3D, 0xEE, 0x4C, 0x95, 0x0B, 0x42, 0xFA, 0xC3, 0x4E],
    #v[0x08, 0x2E, 0xA1, 0x66, 0x28, 0xD9, 0x24, 0xB2, 0x76, 0x5B, 0xA2, 0x49, 0x6D, 0x8B, 0xD1, 0x25],
    #v[0x72, 0xF8, 0xF6, 0x64, 0x86, 0x68, 0x98, 0x16, 0xD4, 0xA4, 0x5C, 0xCC, 0x5D, 0x65, 0xB6, 0x92],
    #v[0x6C, 0x70, 0x48, 0x50, 0xFD, 0xED, 0xB9, 0xDA, 0x5E, 0x15, 0x46, 0x57, 0xA7, 0x8D, 0x9D, 0x84],
    #v[0x90, 0xD8, 0xAB, 0x00, 0x8C, 0xBC, 0xD3, 0x0A, 0xF7, 0xE4, 0x58, 0x05, 0xB8, 0xB3, 0x45, 0x06],
    #v[0xD0, 0x2C, 0x1E, 0x8F, 0xCA, 0x3F, 0x0F, 0x02, 0xC1, 0xAF, 0xBD, 0x03, 0x01, 0x13, 0x8A, 0x6B],
    #v[0x3A, 0x91, 0x11, 0x41, 0x4F, 0x67, 0xDC, 0xEA, 0x97, 0xF2, 0xCF, 0xCE, 0xF0, 0xB4, 0xE6, 0x73],
    #v[0x96, 0xAC, 0x74, 0x22, 0xE7, 0xAD, 0x35, 0x85, 0xE2, 0xF9, 0x37, 0xE8, 0x1C, 0x75, 0xDF, 0x6E],
    #v[0x47, 0xF1, 0x1A, 0x71, 0x1D, 0x29, 0xC5, 0x89, 0x6F, 0xB7, 0x62, 0x0E, 0xAA, 0x18, 0xBE, 0x1B],
    #v[0xFC, 0x56, 0x3E, 0x4B, 0xC6, 0xD2, 0x79, 0x20, 0x9A, 0xDB, 0xC0, 0xFE, 0x78, 0xCD, 0x5A, 0xF4],
    #v[0x1F, 0xDD, 0xA8, 0x33, 0x88, 0x07, 0xC7, 0x31, 0xB1, 0x12, 0x10, 0x59, 0x27, 0x80, 0xEC, 0x5F],
    #v[0x60, 0x51, 0x7F, 0xA9, 0x19, 0xB5, 0x4A, 0x0D, 0x2D, 0xE5, 0x7A, 0x9F, 0x93, 0xC9, 0x9C, 0xEF],
    #v[0xA0, 0xE0, 0x3B, 0x4D, 0xAE, 0x2A, 0xF5, 0xB0, 0xC8, 0xEB, 0xBB, 0x3C, 0x83, 0x53, 0x99, 0x61],
    #v[0x17, 0x2B, 0x04, 0x7E, 0xBA, 0x77, 0xD6, 0x26, 0xE1, 0x69, 0x14, 0x63, 0x55, 0x21, 0x0C, 0x7D]]

/-- `xtime`: multiplication by x in GF(2^8) modulo 0x11B, kept to 8 bits (R183). -/
def xtime (a : Byte) : Byte := (a <<< 1) ^^^ (if a.msb then 0x1B else 0x00)

/-- `xtime^k(a)` (R183). -/
def xtimePow (a : Byte) : Nat → Byte
  | 0 => a
  | k + 1 => xtime (xtimePow a k)

/-- The XOR of `xtime^k(a)` over the bits k < n that are set in b. -/
def gfMulBits (a b : Byte) : Nat → Byte
  | 0 => 0
  | k + 1 => gfMulBits a b k ^^^ (if b.getLsbD k then xtimePow a k else 0)

/-- The product a . b in GF(2^8) (R183). -/
def gfMul (a b : Byte) : Byte := gfMulBits a b 8

/-- A four-byte word of the key schedule; byte 0 is the most significant (R186). -/
abbrev KeyWord := BitVec 32

/-- The word (a0, a1, a2, a3). -/
def keyWord (a0 a1 a2 a3 : Byte) : KeyWord := a0 ++ a1 ++ a2 ++ a3

/-- Byte r of a word, r = 0 to 3. -/
def keyWordByte (t : KeyWord) (r : Nat) : Byte := t.extractLsb' (8 * (3 - r)) 8

/-- RotWord: (a0, a1, a2, a3) becomes (a1, a2, a3, a0) (R186). -/
def rotWord (t : KeyWord) : KeyWord :=
  keyWord (keyWordByte t 1) (keyWordByte t 2) (keyWordByte t 3) (keyWordByte t 0)

/-- SubWord: SBOX on each of the four bytes (R186). -/
def subWord (t : KeyWord) : KeyWord :=
  keyWord (tableAt sbox (keyWordByte t 0)) (tableAt sbox (keyWordByte t 1)) (tableAt sbox (keyWordByte t 2))
    (tableAt sbox (keyWordByte t 3))

/-- Rcon[1..10] (R186); no other index is used. -/
def rcon (k : Nat) : Byte := [0x00, 0x01, 0x02, 0x04, 0x08, 0x10, 0x20, 0x40, 0x80, 0x1B, 0x36].getD k 0x00

/-- w[i] for i ≥ 4 from the words before it, latest first: w[i-1] and w[i-4] (R186). -/
def nextKeyWord (i : Nat) : List KeyWord → KeyWord
  | prev :: _ :: _ :: back4 :: _ =>
    back4 ^^^ (if i % 4 = 0 then subWord (rotWord prev) ^^^ keyWord (rcon (i / 4)) 0 0 0 else prev)
  | _ => 0

/-- w[0 .. n+3], latest first. -/
def keyWordsRev (key : Block) : Nat → List KeyWord
  | 0 =>
    [keyWord key[12] key[13] key[14] key[15], keyWord key[8] key[9] key[10] key[11],
     keyWord key[4] key[5] key[6] key[7], keyWord key[0] key[1] key[2] key[3]]
  | n + 1 => nextKeyWord (n + 4) (keyWordsRev key n) :: keyWordsRev key n

/-- KeyExpansion: w[0..43] in order (R186). -/
def keyExpansion (key : Block) : List KeyWord := (keyWordsRev key 40).reverse

/-- Byte r of w[4k + c], the round key's byte for state cell s[r][c] (R186). -/
def roundKeyByte (w : List KeyWord) (k r c : Nat) : Byte := keyWordByte (w.getD (4 * k + c) 0) r

/-- AddRoundKey(s, k) (R187). The state is held as its 16 bytes, s[r][c] at index r + 4c (R182). -/
def addRoundKey (w : List KeyWord) (k : Nat) (s : Block) : Block :=
  Vector.ofFn fun i : Fin 16 => s[i] ^^^ roundKeyByte w k (i.val % 4) (i.val / 4)

/-- InvSubBytes (R187). -/
def invSubBytes (s : Block) : Block := Vector.ofFn fun i : Fin 16 => tableAt invSbox s[i]

/-- InvShiftRows: s[r][c] takes s_old[r][(c - r) mod 4] (R187). -/
def invShiftRows (s : Block) : Block :=
  Vector.ofFn fun i : Fin 16 =>
    let r := i.val % 4
    let c := i.val / 4
    s[r + 4 * ((c + 4 - r) % 4)]

/-- InvMixColumns on one column (a0, a1, a2, a3): the new cell of row r (R187). -/
def invMixCell (a0 a1 a2 a3 : Byte) (r : Nat) : Byte :=
  match r with
  | 0 => gfMul 0x0E a0 ^^^ gfMul 0x0B a1 ^^^ gfMul 0x0D a2 ^^^ gfMul 0x09 a3
  | 1 => gfMul 0x09 a0 ^^^ gfMul 0x0E a1 ^^^ gfMul 0x0B a2 ^^^ gfMul 0x0D a3
  | 2 => gfMul 0x0D a0 ^^^ gfMul 0x09 a1 ^^^ gfMul 0x0E a2 ^^^ gfMul 0x0B a3
  | _ => gfMul 0x0B a0 ^^^ gfMul 0x0D a1 ^^^ gfMul 0x09 a2 ^^^ gfMul 0x0E a3

/-- InvMixColumns (R187). -/
def invMixColumns (s : Block) : Block :=
  Vector.ofFn fun i : Fin 16 =>
    let c := i.val / 4
    invMixCell s[4 * c] s[4 * c + 1] s[4 * c + 2] s[4 * c + 3] (i.val % 4)

/-- The rounds k, k-1, .., 1 of the inverse cipher (R188). -/
def invRounds (w : List KeyWord) : Nat → Block → Block
  | 0, s => s
  | k + 1, s => invRounds w k (invMixColumns (addRoundKey w (k + 1) (invSubBytes (invShiftRows s))))

/-- The default of AES128_DEC(key, block) (R188). One block, no chaining, no padding (R189). -/
def aes128Dec (key block : Block) : Block :=
  let w := keyExpansion key
  addRoundKey w 0 (invSubBytes (invShiftRows (invRounds w 9 (addRoundKey w 10 block))))

/-- The parameter AES128_DEC (R4, R181) applied to a key and a block: the first answer listed for them, or the default
where none is. -/
def decryptBlock (answers : List CipherAnswer) (key block : Block) : Block :=
  match answers with
  | [] => aes128Dec key block
  | a :: rest => if a.key = key ∧ a.block = block then a.plain else decryptBlock rest key block

end Sys2Proof.Machine
end

