-- ==== Sys2Proof/Machine/State.lean ====
section
/-! DEFINITION. The state of RDEC: the registers of spec/10_state.md R21 to R48 and the model's own fields, and the
state after reset (spec/70_reset_and_hazards.md R260). MANUF_ID is a constant (R37) and so no field. -/

namespace Sys2Proof.Machine

/-- Why the machine stops with a fault. It never does: no rule of the spec stops the core, since a failed command is an
error code in STATUS (spec/60_exceptions.md R239) and each of the 256 bus addresses is defined (R51, R57). So there
is no constructor, which is safe: a step cannot end in a fault. -/
inductive Fault where
  deriving DecidableEq, Repr

/-- Why the machine refuses an instruction. -/
inductive Refusal where
  /-- Raised by an arm of `exec` that has no meaning yet (no arm is left). Safe: nothing is claimed of the instruction. -/
  | notModelled (mnemonic : String)
  deriving DecidableEq, Repr

/-- The error codes 1 to 8 (R225); code 0, NONE, is the absence of an error. -/
inductive ErrCode where
  | noDecoder
  | needsCredentials
  | badCredentials
  | formatMismatch
  | integrity
  | notConstructed
  | notInFormat
  | illegalCommand
  deriving DecidableEq, Repr

/-- STATUS (R35): ERR bits 3:0, VALID bit 4, OVF bit 5. Bits 7:6 read as 0 and hold nothing (log entry 8). -/
structure Status where
  err : BitVec 4
  valid : Bool
  ovf : Bool
  deriving DecidableEq, Repr

/-- INST (R30): CONSTRUCTED bit 0, CRYPT bits 2:1. Bits 7:3 read as 0 and hold nothing (log entry 8). -/
structure Inst where
  constructed : Bool
  crypt : BitVec 2
  deriving DecidableEq, Repr

/-- OPCTRL (R46): INV_EN bit 0. Bits 7:1 read as 0, ignore writes and hold nothing (log entry 8). -/
structure OpCtrl where
  invEn : Bool
  deriving DecidableEq, Repr

/-- What the bus gives the host for the last action served: the output ports `ready` and `rdata` of R81. The model's own
field (log entry 2). -/
inductive Response where
  /-- No access has completed since reset, or none was pending: `ready` is 0. -/
  | idle
  /-- A write has completed; a write of CMD together with its command (R82): `ready` is 1. -/
  | done
  /-- A read has completed and `rdata` is this byte: `ready` is 1. -/
  | data (rdata : Byte)
  deriving DecidableEq, Repr

/-- The state of RDEC. -/
structure State where
  /-- PAYLOAD[0..23] (R21). -/
  payload : Vector Byte 24
  /-- PLEN (R22). -/
  plen : Byte
  /-- DEVID_LEN (R24). -/
  devidLen : Byte
  /-- PASS_LEN (R26). -/
  passLen : Byte
  /-- DEVID[0..7] (R23). -/
  devid : Vector Byte 8
  /-- PASSWD[0..15] (R25). -/
  passwd : Block
  /-- KEY[0..15] (R27). -/
  key : Block
  /-- PLAIN[0..15] (R28). -/
  plain : Block
  /-- FMT (R29). -/
  fmt : Byte
  /-- INST (R30, R31, R33). -/
  inst : Inst
  /-- CRC_CALC (R34). -/
  crcCalc : Byte
  /-- STATUS (R35). -/
  status : Status
  /-- ERRLOG (R36). -/
  errlog : Byte
  /-- RESULT, an s32 (R38). -/
  result : Wide
  /-- RAW (R39). -/
  raw : Half
  /-- ADDR_OUT[0..5] (R40). -/
  addrOut : Vector Byte 6
  /-- CMD (R41). -/
  cmd : Byte
  /-- CMD_ARG (R42). -/
  cmdArg : Byte
  /-- OPA (R43). -/
  opa : Half
  /-- OPMASK (R44). -/
  opmask : Half
  /-- OPINV (R45). -/
  opinv : Half
  /-- OPCTRL (R46). -/
  opctrl : OpCtrl
  /-- OPOFF, an s32 (R47). -/
  opoff : Wide
  /-- OPMUL, an s32 (R48). -/
  opmul : Wide
  /-- The model's own: the host actions not yet served, oldest first (R62, R266; log entry 1). -/
  pending : List HostAction
  /-- The model's own: the bus's answer to the last action served (R81; log entry 2). -/
  response : Response
  /-- The model's own: the implementation's parameters, which no step changes (R4; log entry 3). -/
  cfg : Config
  deriving DecidableEq, Repr

/-- A step's outcome. -/
abbrev StepOutcome := Host.Outcome State Fault Refusal

/-- The machine after reset (R260): every register 0. The model's own fields: no action pending, no answer given, the
default parameters. -/
def State.reset : State where
  payload := Vector.replicate 24 0x00
  plen := 0x00
  devidLen := 0x00
  passLen := 0x00
  devid := Vector.replicate 8 0x00
  passwd := Vector.replicate 16 0x00
  key := Vector.replicate 16 0x00
  plain := Vector.replicate 16 0x00
  fmt := 0x00
  inst := { constructed := false, crypt := 0b00 }
  crcCalc := 0x00
  status := { err := 0, valid := false, ovf := false }
  errlog := 0x00
  result := 0
  raw := 0x0000
  addrOut := Vector.replicate 6 0x00
  cmd := 0x00
  cmdArg := 0x00
  opa := 0x0000
  opmask := 0x0000
  opinv := 0x0000
  opctrl := { invEn := false }
  opoff := 0
  opmul := 0
  pending := []
  response := .idle
  cfg := defaultConfig

/-- Some machine before the first assertion of `rst` (R262): each register holds the free value of its addresses
(log entry 7). -/
def State.powerUp : State :=
  let draw := Config.powerUp
  { payload := Vector.ofFn fun i : Fin 24 => draw i.val
    plen := draw 0x18
    devidLen := draw 0x19
    passLen := draw 0x1A
    devid := Vector.ofFn fun i : Fin 8 => draw (0x20 + i.val)
    passwd := Vector.ofFn fun i : Fin 16 => draw (0x30 + i.val)
    key := Vector.ofFn fun i : Fin 16 => draw (0x70 + i.val)
    plain := Vector.ofFn fun i : Fin 16 => draw (0x80 + i.val)
    fmt := draw 0x54
    inst := { constructed := (draw 0x55).getLsbD 0, crypt := (draw 0x55).extractLsb' 1 2 }
    crcCalc := draw 0x56
    status := { err := (draw 0x52).extractLsb' 0 4, valid := (draw 0x52).getLsbD 4, ovf := (draw 0x52).getLsbD 5 }
    errlog := draw 0x53
    result := draw 0x58 ++ draw 0x59 ++ draw 0x5A ++ draw 0x5B
    raw := draw 0x5C ++ draw 0x5D
    addrOut := Vector.ofFn fun i : Fin 6 => draw (0x60 + i.val)
    cmd := draw 0x50
    cmdArg := draw 0x51
    opa := draw 0x40 ++ draw 0x41
    opmask := draw 0x42 ++ draw 0x43
    opinv := draw 0x44 ++ draw 0x45
    opctrl := { invEn := (draw 0x46).getLsbD 0 }
    opoff := draw 0x48 ++ draw 0x49 ++ draw 0x4A ++ draw 0x4B
    opmul := draw 0x4C ++ draw 0x4D ++ draw 0x4E ++ draw 0x4F
    pending := []
    response := .idle
    cfg := defaultConfig }

end Sys2Proof.Machine
end

