-- ==== Sys2Proof/Machine/Flags.lean ====
section
/-! DEFINITION. The status flags and their computation: the byte views of STATUS, INST and OPCTRL, the error codes,
the sentinel test and the overflow test (spec/10_state.md R30, R35, R46; spec/40_primitives.md R100 to R103;
spec/60_exceptions.md R225). -/

namespace Sys2Proof.Machine

/-- INST.CRYPT = NOT_EVALUATED (R30). -/
abbrev cryptNotEvaluated : BitVec 2 := 0b00

/-- INST.CRYPT = VERIFIED (R30). -/
abbrev cryptVerified : BitVec 2 := 0b01

/-- INST.CRYPT = FAILED (R30). -/
abbrev cryptFailed : BitVec 2 := 0b10

/-- The number of an error code (R225). -/
def errNumber : ErrCode → Nat
  | .noDecoder => 1
  | .needsCredentials => 2
  | .badCredentials => 3
  | .formatMismatch => 4
  | .integrity => 5
  | .notConstructed => 6
  | .notInFormat => 7
  | .illegalCommand => 8

/-- The code as STATUS.ERR holds it (R35). -/
def errField (e : ErrCode) : BitVec 4 := BitVec.ofNat 4 (errNumber e)

/-- The code's sticky bit, ERRLOG[k-1] for code k (R36, R227). -/
def errBit (e : ErrCode) : Byte := 1 <<< (errNumber e - 1)

/-- STATUS as the host reads it (R35). -/
def statusByte (t : Status) : Byte := 0b00#2 ++ BitVec.ofBool t.ovf ++ BitVec.ofBool t.valid ++ t.err

/-- INST as the host reads it (R30). -/
def instByte (t : Inst) : Byte := 0b00000#5 ++ t.crypt ++ BitVec.ofBool t.constructed

/-- OPCTRL as the host reads it (R46). -/
def opCtrlByte (t : OpCtrl) : Byte := 0b0000000#7 ++ BitVec.ofBool t.invEn

/-- OPCTRL after a write of v: only bit 0 is kept (R46). -/
def opCtrlOfByte (v : Byte) : OpCtrl := { invEn := v.getLsbD 0 }

/-- The sentinel test, on the masked unsigned pattern (R100, R101). -/
def isSentinel (inv : Option Half) (pat : Half) : Bool :=
  match inv with
  | none => false
  | some p => pat == p

/-- `wrap32`: the s32 congruent to v modulo 2^32 (R7). -/
def wrap32 (v : Int) : Wide := BitVec.ofInt 32 v

/-- OVF: the exact value lies outside -2^31 to 2^31 - 1 (R102, R103). -/
def overflows (exact : Int) : Bool := decide (exact < -2 ^ 31 ∨ exact > 2 ^ 31 - 1)

end Sys2Proof.Machine
end

