-- ==== Sys2Proof/Machine/Operands.lean ====
section
/-! DEFINITION. The operands of the field extractor and the fixed-point converter: windows of a buffer, the operand
registers, and the shared function Decode (spec/20_memory.md R53, R55, R61; spec/40_primitives.md R100 to R108). -/

namespace Sys2Proof.Machine

/-- What a reading command hands to its completion: `finish(valid, result, raw, ovf)` (R10, R226). -/
structure Reading where
  valid : Bool
  result : Wide
  raw : Half
  ovf : Bool
  deriving DecidableEq, Repr

/-- `finish(0, 0, 0, 0)`, the completion of a command that produces no reading (R226). -/
def noReading : Reading := { valid := false, result := 0, raw := 0x0000, ovf := false }

/-- "No reading": `finish(0, 0, pat, 0)` (R100, R226). -/
def absentReading (pat : Half) : Reading := { valid := false, result := 0, raw := pat, ovf := false }

/-- `W16(B, i)`: the big-endian two-byte window at offset i (R53). -/
def window16 {n : Nat} (b : Vector Byte n) (i : Nat) (h : i + 1 < n) : Half := b[i] ++ b[i + 1]

/-- `zext_16(Byte(B, i))`: a single byte promoted with a zero high byte (R55). -/
def window8 {n : Nat} (b : Vector Byte n) (i : Nat) (h : i < n) : Half := 0x00#8 ++ b[i]

/-- The six address bytes `PAYLOAD[i..i+5]` (R61). -/
def addressBytes (p : Vector Byte 24) (i : Nat) (h : i + 5 < 24) : Vector Byte 6 :=
  Vector.ofFn fun j : Fin 6 => p[i + j.val]

/-- The V8 ciphertext block `PAYLOAD[1..16]` (R189, R190). -/
def cipherBlock (p : Vector Byte 24) : Block := Vector.ofFn fun j : Fin 16 => p[1 + j.val]

/-- The sentinel operand of the primitive commands: OPINV where OPCTRL.INV_EN = 1 (R45, R46, R87). -/
def State.sentinel (s : State) : Option Half := if s.opctrl.invEn then some s.opinv else none

/-- The reading of a pattern as a number (R7 `to_s16`, R100). -/
def signedValue (sgn : Sign) (pat : Half) : Int :=
  match sgn with
  | .unsigned => pat.toNat
  | .signed => pat.toInt

/-- Convert: the exact fixed-point product (R102). -/
def convert (value : Int) (pat : Half) (off mul : Int) : Reading :=
  let exact := (value + off) * mul
  { valid := true, result := wrap32 exact, raw := pat, ovf := overflows exact }

/-- Decode: extract, test the sentinel, then interpret and scale (R100). -/
def decodeField (p : Half) (sgn : Sign) (mask : Half) (inv : Option Half) (off mul : Int) : Reading :=
  let pat := p &&& mask
  if isSentinel inv pat then absentReading pat
  else convert (signedValue sgn pat) pat off mul

/-- FieldU16 (R108). -/
def fieldU16 {n : Nat} (b : Vector Byte n) (i : Nat) (off mul : Int) (inv : Option Half)
    (h : i + 1 < n := by decide) : Reading :=
  decodeField (window16 b i h) .unsigned 0xFFFF inv off mul

/-- FieldS16 (R108). -/
def fieldS16 {n : Nat} (b : Vector Byte n) (i : Nat) (off mul : Int) (inv : Option Half)
    (h : i + 1 < n := by decide) : Reading :=
  decodeField (window16 b i h) .signed 0xFFFF inv off mul

/-- FieldU8 (R108). -/
def fieldU8 {n : Nat} (b : Vector Byte n) (i : Nat) (off mul : Int) (inv : Option Half)
    (h : i < n := by decide) : Reading :=
  decodeField (window8 b i h) .unsigned 0xFFFF inv off mul

/-- FieldBM: the word is shifted, then masked (R108). -/
def fieldBM (w : Half) (shift : Nat) (mask : Half) (off mul : Int) (inv : Option Half) : Reading :=
  decodeField (w >>> shift) .unsigned mask inv off mul

end Sys2Proof.Machine
end

