-- ==== Sys2Proof/Machine/Ops.lean ====
section
/-! DEFINITION. The named operations every command is made of: the normal completion and the error completion
(spec/60_exceptions.md R226, R227), which stands where other machines take an exception, and the operations on the
instance (spec/41_format_select.md R120). Nothing returns from an error (R241). -/

namespace Sys2Proof.Machine

/-- `finish(valid, result, raw, ovf)`: the normal completion (R226). -/
def finish (r : Reading) (s : State) : State :=
  { s with
    status := { err := 0, valid := r.valid, ovf := r.ovf }
    result := r.result
    raw := r.raw }

/-- `raise Error(code)`: the error completion (R227). -/
def raiseError (e : ErrCode) (s : State) : State :=
  { s with
    status := { err := errField e, valid := false, ovf := false }
    result := 0
    raw := 0x0000
    errlog := s.errlog ||| errBit e }

/-- Discard the instance (R58, R120). -/
def discardInstance (s : State) : State :=
  { s with
    inst := { constructed := false, crypt := cryptNotEvaluated }
    fmt := 0x00 }

/-- `INST.CONSTRUCTED <- 1; FMT <- tag` (R122, R125, R127). -/
def openInstance (tag : Byte) (s : State) : State :=
  { s with
    inst := { s.inst with constructed := true }
    fmt := tag }

/-- `ADDR_OUT[0..5] <- a` (R131, R167). -/
def setAddrOut (a : Vector Byte 6) (s : State) : State := { s with addrOut := a }

/-- Six zero bytes. -/
def zeroAddress : Vector Byte 6 := Vector.replicate 6 0x00

end Sys2Proof.Machine
end

