-- ==== Sys2Proof/Machine/AddressMap.lean ====
section
/-! DEFINITION. The register space (spec/20_memory.md R50 to R61): which register byte stands at each of the 256
addresses, the core's own byte reads and writes (MemRead and MemWrite of spec/00_scope.md R9), and the host's. -/

namespace Sys2Proof.Machine

/-- The register byte at an address; byte i of a multi-byte register counts from its most significant byte (R51, R54). -/
inductive Loc where
  | payload (i : Fin 24)
  | plen
  | devidLen
  | passLen
  | devid (i : Fin 8)
  | passwd (i : Fin 16)
  | opa (i : Fin 2)
  | opmask (i : Fin 2)
  | opinv (i : Fin 2)
  | opctrl
  | opoff (i : Fin 4)
  | opmul (i : Fin 4)
  | cmd
  | cmdArg
  | status
  | errlog
  | fmt
  | inst
  | crcCalc
  | result (i : Fin 4)
  | raw (i : Fin 2)
  | addrOut (i : Fin 6)
  | manufId (i : Fin 2)
  | key (i : Fin 16)
  | plain (i : Fin 16)
  | reserved
  deriving DecidableEq, Repr

/-- The host's access to a register byte (R51). -/
inductive Access where
  | readWrite
  | readOnly
  | noAccess
  deriving DecidableEq, Repr

/-- The map of R51. -/
def locOf (addr : Byte) : Loc :=
  let a := addr.toNat
  if h : a < 0x18 then .payload ⟨a, h⟩
  else if a = 0x18 then .plen
  else if a = 0x19 then .devidLen
  else if a = 0x1A then .passLen
  else if a < 0x20 then .reserved
  else if h : a < 0x28 then .devid ⟨a - 0x20, by omega⟩
  else if a < 0x30 then .reserved
  else if h : a < 0x40 then .passwd ⟨a - 0x30, by omega⟩
  else if h : a < 0x42 then .opa ⟨a - 0x40, by omega⟩
  else if h : a < 0x44 then .opmask ⟨a - 0x42, by omega⟩
  else if h : a < 0x46 then .opinv ⟨a - 0x44, by omega⟩
  else if a = 0x46 then .opctrl
  else if a = 0x47 then .reserved
  else if h : a < 0x4C then .opoff ⟨a - 0x48, by omega⟩
  else if h : a < 0x50 then .opmul ⟨a - 0x4C, by omega⟩
  else if a = 0x50 then .cmd
  else if a = 0x51 then .cmdArg
  else if a = 0x52 then .status
  else if a = 0x53 then .errlog
  else if a = 0x54 then .fmt
  else if a = 0x55 then .inst
  else if a = 0x56 then .crcCalc
  else if a = 0x57 then .reserved
  else if h : a < 0x5C then .result ⟨a - 0x58, by omega⟩
  else if h : a < 0x5E then .raw ⟨a - 0x5C, by omega⟩
  else if a < 0x60 then .reserved
  else if h : a < 0x66 then .addrOut ⟨a - 0x60, by omega⟩
  else if h : a < 0x68 then .manufId ⟨a - 0x66, by omega⟩
  else if a < 0x70 then .reserved
  else if h : a < 0x80 then .key ⟨a - 0x70, by omega⟩
  else if h : a < 0x90 then .plain ⟨a - 0x80, by omega⟩
  else .reserved

/-- The access column of R51. A reserved address has none (R57). -/
def accessOf : Loc → Access
  | .payload _ | .plen | .devidLen | .passLen | .devid _ | .passwd _ => .readWrite
  | .opa _ | .opmask _ | .opinv _ | .opctrl | .opoff _ | .opmul _ => .readWrite
  | .cmd | .cmdArg => .readWrite
  | .status | .errlog | .fmt | .inst | .crcCalc => .readOnly
  | .result _ | .raw _ | .addrOut _ | .manufId _ | .plain _ => .readOnly
  | .key _ | .reserved => .noAccess

/-- The input registers, whose write discards the instance (R58). -/
def isInput : Loc → Bool
  | .payload _ | .plen | .devidLen | .passLen | .devid _ | .passwd _ => true
  | .opa _ | .opmask _ | .opinv _ | .opctrl | .opoff _ | .opmul _ => false
  | .cmd | .cmdArg | .status | .errlog | .fmt | .inst | .crcCalc => false
  | .result _ | .raw _ | .addrOut _ | .manufId _ | .key _ | .plain _ | .reserved => false

/-- MANUF_ID (R37). -/
def manufId : Half := 0x0499

/-- The byte of v whose least significant bit is bit `lo`. -/
def byteOf {w : Nat} (v : BitVec w) (lo : Nat) : Byte := v.extractLsb' lo 8

/-- v with the byte whose least significant bit is bit `lo` replaced by b. -/
def withByte {w : Nat} (v : BitVec w) (lo : Nat) (b : Byte) : BitVec w :=
  (v &&& ~~~((0xFF#w) <<< lo)) ||| (b.setWidth w <<< lo)

/-- The byte a register holds at a location, as the core reads it: a reserved location reads 0x00 (log entry 9). -/
def peek (s : State) : Loc → Byte
  | .payload i => s.payload[i]
  | .plen => s.plen
  | .devidLen => s.devidLen
  | .passLen => s.passLen
  | .devid i => s.devid[i]
  | .passwd i => s.passwd[i]
  | .opa i => byteOf s.opa (8 * (1 - i.val))
  | .opmask i => byteOf s.opmask (8 * (1 - i.val))
  | .opinv i => byteOf s.opinv (8 * (1 - i.val))
  | .opctrl => opCtrlByte s.opctrl
  | .opoff i => byteOf s.opoff (8 * (3 - i.val))
  | .opmul i => byteOf s.opmul (8 * (3 - i.val))
  | .cmd => s.cmd
  | .cmdArg => s.cmdArg
  | .status => statusByte s.status
  | .errlog => s.errlog
  | .fmt => s.fmt
  | .inst => instByte s.inst
  | .crcCalc => s.crcCalc
  | .result i => byteOf s.result (8 * (3 - i.val))
  | .raw i => byteOf s.raw (8 * (1 - i.val))
  | .addrOut i => s.addrOut[i]
  | .manufId i => byteOf manufId (8 * (1 - i.val))
  | .key i => s.key[i]
  | .plain i => s.plain[i]
  | .reserved => 0x00

/-- The core's store of a byte at a location. Reserved bits, reserved locations and the constant MANUF_ID hold nothing
that a store could change (R30, R35, R37, R46; log entries 8 and 9). -/
def poke (s : State) (l : Loc) (v : Byte) : State :=
  match l with
  | .payload i => { s with payload := s.payload.set i v }
  | .plen => { s with plen := v }
  | .devidLen => { s with devidLen := v }
  | .passLen => { s with passLen := v }
  | .devid i => { s with devid := s.devid.set i v }
  | .passwd i => { s with passwd := s.passwd.set i v }
  | .opa i => { s with opa := withByte s.opa (8 * (1 - i.val)) v }
  | .opmask i => { s with opmask := withByte s.opmask (8 * (1 - i.val)) v }
  | .opinv i => { s with opinv := withByte s.opinv (8 * (1 - i.val)) v }
  | .opctrl => { s with opctrl := opCtrlOfByte v }
  | .opoff i => { s with opoff := withByte s.opoff (8 * (3 - i.val)) v }
  | .opmul i => { s with opmul := withByte s.opmul (8 * (3 - i.val)) v }
  | .cmd => { s with cmd := v }
  | .cmdArg => { s with cmdArg := v }
  | .status => { s with status := { err := v.extractLsb' 0 4, valid := v.getLsbD 4, ovf := v.getLsbD 5 } }
  | .errlog => { s with errlog := v }
  | .fmt => { s with fmt := v }
  | .inst => { s with inst := { constructed := v.getLsbD 0, crypt := v.extractLsb' 1 2 } }
  | .crcCalc => { s with crcCalc := v }
  | .result i => { s with result := withByte s.result (8 * (3 - i.val)) v }
  | .raw i => { s with raw := withByte s.raw (8 * (1 - i.val)) v }
  | .addrOut i => { s with addrOut := s.addrOut.set i v }
  | .manufId _ => s
  | .key i => { s with key := s.key.set i v }
  | .plain i => { s with plain := s.plain.set i v }
  | .reserved => s

/-- `MemRead(addr, n)`: n bytes, the byte at addr the most significant (R9). The address counts modulo 256
(log entry 9). -/
def memRead (s : State) (addr : Byte) : Nat → Nat
  | 0 => 0
  | n + 1 => memRead s addr n * 256 + (peek s (locOf (addr + BitVec.ofNat 8 n))).toNat

/-- `MemWrite(addr, n, v)`: the most significant byte at addr (R9). -/
def memWrite (s : State) (addr : Byte) : Nat → Nat → State
  | 0, _ => s
  | n + 1, v => memWrite (poke s (locOf (addr + BitVec.ofNat 8 n)) (BitVec.ofNat 8 v)) addr n (v / 256)

/-- A host read: the KEY window and reserved addresses give 0x00 (R57). It changes no state (R59). -/
def busRead (s : State) (addr : Byte) : Byte :=
  match accessOf (locOf addr) with
  | .noAccess => 0x00
  | .readWrite | .readOnly => peek s (locOf addr)

/-- A host write to an address other than CMD: the byte is stored where the register can be written, and an input
register's write then discards the instance (R57 to R59). -/
def busWrite (s : State) (addr v : Byte) : State :=
  match accessOf (locOf addr) with
  | .readWrite =>
    if isInput (locOf addr) then discardInstance (poke s (locOf addr) v) else poke s (locOf addr) v
  | .readOnly | .noAccess => s

end Sys2Proof.Machine
end

