-- ==== Sys2Proof/Machine/Control.lean ====
section
/-! DEFINITION. The control commands NOP and CLEAR (spec/46_control.md R215, R216). -/

namespace Sys2Proof.Machine

/-- What CLEAR sets before it completes (R216). -/
def clearCore (s : State) : State :=
  { discardInstance s with
    key := Vector.replicate 16 0x00
    plain := Vector.replicate 16 0x00
    crcCalc := 0x00
    addrOut := zeroAddress
    errlog := 0x00 }

/-- NOP (R215). -/
def execNop (s : State) : StepOutcome := .next (finish noReading s)

/-- CLEAR (R216). -/
def execClear (s : State) : StepOutcome := .next (finish noReading (clearCore s))

end Sys2Proof.Machine
end

