-- ==== Sys2Proof/Machine/FormatSelect.lean ====
section
/-! DEFINITION. Format detection and construction: SELECT and the four CONSTRUCT commands
(spec/41_format_select.md R120 to R128). -/

namespace Sys2Proof.Machine

/-- The tag of a format (R85, R121). -/
def formatTag : Format → Byte
  | .v3 => 0x03
  | .v5 => 0x05
  | .c5 => 0xC5
  | .v8 => 0x08

/-- `Len(t)`, the exact payload length of a format (R121). -/
def formatLen : Format → Nat
  | .v3 => 14
  | .v5 => 24
  | .c5 => 18
  | .v8 => 24

/-- The format whose tag FMT holds (R29). -/
def formatOfTag (tag : Byte) : Option Format :=
  if tag = 0x03 then some .v3
  else if tag = 0x05 then some .v5
  else if tag = 0xC5 then some .c5
  else if tag = 0x08 then some .v8
  else none

/-- `Match(t)` (R121). -/
def matchesFormat (f : Format) (s : State) : Bool :=
  decide (s.plen.toNat = formatLen f ∧ 1 ≤ s.plen.toNat ∧ s.payload[0] = formatTag f)

/-- A successful construction (R122, R125, R127). -/
def construct (f : Format) (s : State) : State := finish noReading (openInstance (formatTag f) s)

/-- SELECT after the instance is discarded: V3, V5, C5 in that order (R122, R123), never V8 (R124). -/
def selectFormat (s : State) : State :=
  if matchesFormat .v3 s then construct .v3 s
  else if matchesFormat .v5 s then construct .v5 s
  else if matchesFormat .c5 s then construct .c5 s
  else if matchesFormat .v8 s then raiseError .needsCredentials s
  else raiseError .noDecoder s

/-- CONSTRUCT of a non-encrypted format after the instance is discarded (R125). -/
def constructPlain (f : Format) (s : State) : State :=
  if matchesFormat f s then construct f s else raiseError .formatMismatch s

/-- DEVID_LEN and PASS_LEN are those V8 needs (R127, R230). -/
def credentialLengthsOk (s : State) : Bool := decide (s.devidLen = 8 ∧ s.passLen = 16)

/-- CONSTRUCT.V8 after the instance is discarded, its two checks in the order of P_CHECK_ORDER (R127). -/
def constructEncrypted (s : State) : State :=
  match s.cfg.checkOrder with
  | .formatFirst =>
    if !matchesFormat .v8 s then raiseError .formatMismatch s
    else if !credentialLengthsOk s then raiseError .badCredentials s
    else construct .v8 s
  | .credentialsFirst =>
    if !credentialLengthsOk s then raiseError .badCredentials s
    else if !matchesFormat .v8 s then raiseError .formatMismatch s
    else construct .v8 s

/-- SELECT (R122). -/
def execSelect (s : State) : StepOutcome := .next (selectFormat (discardInstance s))

/-- CONSTRUCT.V3 (R125). -/
def execConstructV3 (s : State) : StepOutcome := .next (constructPlain .v3 (discardInstance s))

/-- CONSTRUCT.V5 (R125). -/
def execConstructV5 (s : State) : StepOutcome := .next (constructPlain .v5 (discardInstance s))

/-- CONSTRUCT.C5 (R125). -/
def execConstructC5 (s : State) : StepOutcome := .next (constructPlain .c5 (discardInstance s))

/-- CONSTRUCT.V8 (R127). -/
def execConstructV8 (s : State) : StepOutcome := .next (constructEncrypted (discardInstance s))

end Sys2Proof.Machine
end

