-- ==== Sys2Proof/Machine/Primitives.lean ====
section
/-! DEFINITION. The primitive commands DEC.U16, DEC.S16 and DEC.BM (spec/40_primitives.md R105 to R107). They read the
operand registers only, and no instance is needed. -/

namespace Sys2Proof.Machine

/-- Decode of OPA with the operand registers (R87, R100). -/
def primitive (sgn : Sign) (mask : Half) (s : State) : Reading :=
  decodeField s.opa sgn mask s.sentinel s.opoff.toInt s.opmul.toInt

/-- DEC.U16 (R105). -/
def execDecU16 (s : State) : StepOutcome := .next (finish (primitive .unsigned 0xFFFF s) s)

/-- DEC.S16 (R106). -/
def execDecS16 (s : State) : StepOutcome := .next (finish (primitive .signed 0xFFFF s) s)

/-- DEC.BM (R107). -/
def execDecBm (s : State) : StepOutcome := .next (finish (primitive .unsigned s.opmask s) s)

end Sys2Proof.Machine
end

