-- ==== Sys2Proof/Machine/LayoutV5.lean ====
section
/-! DEFINITION. The V5 layout (spec/43_layout_v5_c5.md R155 to R167), and the address rule V5, C5 and V8 share. -/

namespace Sys2Proof.Machine

/-- The address rule: ADDR_OUT takes the six bytes; VALID = 0 exactly when all are 0xFF (R167). -/
def readAddress (a : Vector Byte 6) (s : State) : State :=
  finish { noReading with valid := a.toList.any (· != 0xFF) } (setAddrOut a s)

/-- READ.TEMP on V5 (R156). -/
def v5Temp (s : State) : State := finish (fieldS16 s.payload 1 0 50 (some 0x8000)) s

/-- READ.HUMID on V5 (R157). -/
def v5Humid (s : State) : State := finish (fieldU16 s.payload 3 0 25 (some 0xFFFF)) s

/-- READ.PRESS on V5 (R158). -/
def v5Press (s : State) : State := finish (fieldU16 s.payload 5 50000 100 (some 0xFFFF)) s

/-- READ.ACCX on V5 (R159). -/
def v5Accx (s : State) : State := finish (fieldS16 s.payload 7 0 10 (some 0x8000)) s

/-- READ.ACCY on V5 (R160). -/
def v5Accy (s : State) : State := finish (fieldS16 s.payload 9 0 10 (some 0x8000)) s

/-- READ.ACCZ on V5 (R161). -/
def v5Accz (s : State) : State := finish (fieldS16 s.payload 11 0 10 (some 0x8000)) s

/-- The V5 power word, PAYLOAD[13..14] (R162). -/
def v5PowerWord (s : State) : Half := window16 s.payload 13 (by decide)

/-- READ.TXPWR on V5: the low 5 bits of the power word (R163). -/
def v5Txpwr (s : State) : State := finish (fieldBM (v5PowerWord s) 0 0x001F (-20) 20000 (some 31)) s

/-- READ.BATT on V5: bits 15:5 of the power word (R164). -/
def v5Batt (s : State) : State := finish (fieldBM (v5PowerWord s) 5 0x07FF 1600 10 (some 2047)) s

/-- READ.MOVE on V5: one byte (R165). -/
def v5Move (s : State) : State := finish (fieldU8 s.payload 15 0 10000 (some 0x00FF)) s

/-- READ.SEQ on V5 (R166). -/
def v5Seq (s : State) : State := finish (fieldU16 s.payload 16 0 10000 (some 0xFFFF)) s

/-- READ.ADDR on V5 (R167). -/
def v5Addr (s : State) : State := readAddress (addressBytes s.payload 18 (by decide)) s

end Sys2Proof.Machine
end

