-- ==== Sys2Proof/Machine/LayoutC5.lean ====
section
/-! DEFINITION. The C5 layout (spec/43_layout_v5_c5.md R168 to R177): V5 without the accelerations, each later offset 6
bytes lower. -/

namespace Sys2Proof.Machine

/-- READ.TEMP on C5 (R169). -/
def c5Temp (s : State) : State := finish (fieldS16 s.payload 1 0 50 (some 0x8000)) s

/-- READ.HUMID on C5 (R170). -/
def c5Humid (s : State) : State := finish (fieldU16 s.payload 3 0 25 (some 0xFFFF)) s

/-- READ.PRESS on C5 (R171). -/
def c5Press (s : State) : State := finish (fieldU16 s.payload 5 50000 100 (some 0xFFFF)) s

/-- The C5 power word, PAYLOAD[7..8] (R172). -/
def c5PowerWord (s : State) : Half := window16 s.payload 7 (by decide)

/-- READ.TXPWR on C5 (R173). -/
def c5Txpwr (s : State) : State := finish (fieldBM (c5PowerWord s) 0 0x001F (-20) 20000 (some 31)) s

/-- READ.BATT on C5 (R174). -/
def c5Batt (s : State) : State := finish (fieldBM (c5PowerWord s) 5 0x07FF 1600 10 (some 2047)) s

/-- READ.MOVE on C5 (R175). -/
def c5Move (s : State) : State := finish (fieldU8 s.payload 9 0 10000 (some 0x00FF)) s

/-- READ.SEQ on C5 (R176). -/
def c5Seq (s : State) : State := finish (fieldU16 s.payload 10 0 10000 (some 0xFFFF)) s

/-- READ.ADDR on C5 (R177). -/
def c5Addr (s : State) : State := readAddress (addressBytes s.payload 12 (by decide)) s

end Sys2Proof.Machine
end

