-- ==== Sys2Proof/Machine/LayoutV3.lean ====
section
/-! DEFINITION. The V3 layout (spec/42_layout_v3.md R140 to R147). -/

namespace Sys2Proof.Machine

/-- READ.HUMID on V3 (R141). -/
def v3Humid (s : State) : State := finish (fieldU8 s.payload 1 0 5000 none) s

/-- The V3 temperature of bytes 2 and 3: sign, whole degrees, hundredths (R142). The test `whole > 127` is kept as the
rule writes it; it never holds (R148). -/
def v3Temperature (b2 b3 : Byte) : Reading :=
  let pat := b2 ++ b3
  let whole : Nat := (b2.extractLsb' 0 7).toNat
  if whole > 127 ∨ b3.toNat > 99 then absentReading pat
  else
    let mag : Int := (whole * 100 + b3.toNat) * 100
    { valid := true, result := wrap32 (if b2.getLsbD 7 then -mag else mag), raw := pat, ovf := false }

/-- READ.TEMP on V3 (R142). -/
def v3Temp (s : State) : State := finish (v3Temperature s.payload[2] s.payload[3]) s

/-- READ.PRESS on V3 (R143). -/
def v3Press (s : State) : State := finish (fieldU16 s.payload 4 50000 100 none) s

/-- READ.ACCX on V3 (R144). -/
def v3Accx (s : State) : State := finish (fieldS16 s.payload 6 0 10 none) s

/-- READ.ACCY on V3 (R145). -/
def v3Accy (s : State) : State := finish (fieldS16 s.payload 8 0 10 none) s

/-- READ.ACCZ on V3 (R146). -/
def v3Accz (s : State) : State := finish (fieldS16 s.payload 10 0 10 none) s

/-- READ.BATT on V3 (R147). -/
def v3Batt (s : State) : State := finish (fieldU16 s.payload 12 0 10 none) s

end Sys2Proof.Machine
end

