-- ==== Sys2Proof/Machine/V8Crypto.lean ====
section
/-! DEFINITION. The three V8 stages, the lazy gate, and VERIFY (spec/44_v8_crypto.md R180, R189 to R194). -/

namespace Sys2Proof.Machine

/-- The key of stage 1: PASSWD, its first 8 bytes XOR DEVID (R180). -/
def deriveKey (passwd : Block) (devid : Vector Byte 8) : Block :=
  Vector.ofFn fun i : Fin 16 => if h : i.val ≤ 7 then passwd[i] ^^^ devid[i.val] else passwd[i]

/-- Stage 1 writes KEY (R180). -/
def stage1 (s : State) : State := { s with key := deriveKey s.passwd s.devid }

/-- Stage 2 writes PLAIN, by the parameter AES128_DEC (R190, R181). -/
def stage2 (s : State) : State := { s with plain := decryptBlock s.cfg.cipher s.key (cipherBlock s.payload) }

/-- Stage 3 writes CRC_CALC and INST.CRYPT (R192). -/
def stage3 (s : State) : State :=
  let crc := crc8 s.cfg.crcTable s.plain.toList
  { s with
    crcCalc := crc
    inst := { s.inst with crypt := if crc = s.payload[17] then cryptVerified else cryptFailed } }

/-- The state `EnsurePlain()` leaves: the stages run only where INST.CRYPT = NOT_EVALUATED (R193). -/
def ensurePlain (s : State) : State :=
  if s.inst.crypt = cryptNotEvaluated then stage3 (stage2 (stage1 s)) else s

/-- What `EnsurePlain()` returns, read from the state it leaves (R193). CRYPT = 0b11, which no run from reset holds, counts as
not verified (log entry 6). -/
def isVerified (s : State) : Bool := s.inst.crypt == cryptVerified

/-- Run the gate, then the rule it guards, or INTEGRITY (R194, R200). -/
def plainGate (rule : State → State) (s : State) : State :=
  if isVerified (ensurePlain s) then rule (ensurePlain s) else raiseError .integrity (ensurePlain s)

/-- VERIFY's checks, in order (R194, R237). -/
def verifyInstance (s : State) : State :=
  if !s.inst.constructed then raiseError .notConstructed s
  else if s.fmt ≠ formatTag .v8 then raiseError .notInFormat s
  else plainGate (finish noReading) s

/-- VERIFY (R194). -/
def execVerify (s : State) : StepOutcome := .next (verifyInstance s)

end Sys2Proof.Machine
end

