-- ==== Sys2Proof/Machine/LayoutV8.lean ====
section
/-! DEFINITION. The V8 layout (spec/45_layout_v8.md R200 to R210): the plaintext fields behind the integrity gate, the
address in cleartext. PLAIN[12..15] are read by no field (R210). -/

namespace Sys2Proof.Machine

/-- READ.TEMP on V8 (R201). -/
def v8Temp (s : State) : State := plainGate (fun t => finish (fieldS16 t.plain 0 0 50 (some 0x8000)) t) s

/-- READ.HUMID on V8 (R202). -/
def v8Humid (s : State) : State := plainGate (fun t => finish (fieldU16 t.plain 2 0 25 (some 0xFFFF)) t) s

/-- READ.PRESS on V8 (R203). -/
def v8Press (s : State) : State := plainGate (fun t => finish (fieldU16 t.plain 4 50000 100 (some 0xFFFF)) t) s

/-- The V8 power word, PLAIN[6..7] (R204). -/
def v8PowerWord (s : State) : Half := window16 s.plain 6 (by decide)

/-- READ.TXPWR on V8 (R205). -/
def v8Txpwr (s : State) : State :=
  plainGate (fun t => finish (fieldBM (v8PowerWord t) 0 0x001F (-20) 20000 (some 31)) t) s

/-- READ.BATT on V8 (R206). -/
def v8Batt (s : State) : State :=
  plainGate (fun t => finish (fieldBM (v8PowerWord t) 5 0x07FF 1600 10 (some 2047)) t) s

/-- READ.MOVE on V8: the full 16 bits (R207). -/
def v8Move (s : State) : State := plainGate (fun t => finish (fieldU16 t.plain 8 0 10000 (some 0xFFFF)) t) s

/-- READ.SEQ on V8 (R208). -/
def v8Seq (s : State) : State := plainGate (fun t => finish (fieldU16 t.plain 10 0 10000 (some 0xFFFF)) t) s

/-- READ.ADDR on V8: the cleartext address, with no gate (R209). -/
def v8Addr (s : State) : State := readAddress (addressBytes s.payload 18 (by decide)) s

end Sys2Proof.Machine
end

