-- ==== Sys2Proof/Machine/Read.lean ====
section
/-! DEFINITION. READ: the table of fields per format (spec/41_format_select.md R130), the dispatch every READ shares
(R131), and the eleven READ commands. -/

namespace Sys2Proof.Machine

/-- The table of R130: the layout rule of a field in a format; `none` is the table's "no". -/
def layoutRule (field : Field) (f : Format) : Option (State → State) :=
  match field, f with
  | .temp, .v3 => some v3Temp
  | .temp, .v5 => some v5Temp
  | .temp, .c5 => some c5Temp
  | .temp, .v8 => some v8Temp
  | .humid, .v3 => some v3Humid
  | .humid, .v5 => some v5Humid
  | .humid, .c5 => some c5Humid
  | .humid, .v8 => some v8Humid
  | .press, .v3 => some v3Press
  | .press, .v5 => some v5Press
  | .press, .c5 => some c5Press
  | .press, .v8 => some v8Press
  | .accx, .v3 => some v3Accx
  | .accx, .v5 => some v5Accx
  | .accx, .c5 => none
  | .accx, .v8 => none
  | .accy, .v3 => some v3Accy
  | .accy, .v5 => some v5Accy
  | .accy, .c5 => none
  | .accy, .v8 => none
  | .accz, .v3 => some v3Accz
  | .accz, .v5 => some v5Accz
  | .accz, .c5 => none
  | .accz, .v8 => none
  | .batt, .v3 => some v3Batt
  | .batt, .v5 => some v5Batt
  | .batt, .c5 => some c5Batt
  | .batt, .v8 => some v8Batt
  | .txpwr, .v3 => none
  | .txpwr, .v5 => some v5Txpwr
  | .txpwr, .c5 => some c5Txpwr
  | .txpwr, .v8 => some v8Txpwr
  | .move, .v3 => none
  | .move, .v5 => some v5Move
  | .move, .c5 => some c5Move
  | .move, .v8 => some v8Move
  | .seq, .v3 => none
  | .seq, .v5 => some v5Seq
  | .seq, .c5 => some c5Seq
  | .seq, .v8 => some v8Seq
  | .addr, .v3 => none
  | .addr, .v5 => some v5Addr
  | .addr, .c5 => some c5Addr
  | .addr, .v8 => some v8Addr

/-- A failed READ.ADDR leaves zeros in ADDR_OUT; the other fields leave it alone (R131). -/
def clearAddrOut (field : Field) (s : State) : State :=
  if field = .addr then setAddrOut zeroAddress s else s

/-- READ.<field>: the dispatch (R131). An FMT that is no recognized tag has no fields (log entry 5). -/
def readField (field : Field) (s : State) : State :=
  if !s.inst.constructed then raiseError .notConstructed (clearAddrOut field s)
  else
    match (formatOfTag s.fmt).bind (layoutRule field) with
    | none => raiseError .notInFormat (clearAddrOut field s)
    | some rule => rule s

/-- READ.TEMP (R131). -/
def execReadTemp (s : State) : StepOutcome := .next (readField .temp s)

/-- READ.HUMID (R131). -/
def execReadHumid (s : State) : StepOutcome := .next (readField .humid s)

/-- READ.PRESS (R131). -/
def execReadPress (s : State) : StepOutcome := .next (readField .press s)

/-- READ.ACCX (R131). -/
def execReadAccx (s : State) : StepOutcome := .next (readField .accx s)

/-- READ.ACCY (R131). -/
def execReadAccy (s : State) : StepOutcome := .next (readField .accy s)

/-- READ.ACCZ (R131). -/
def execReadAccz (s : State) : StepOutcome := .next (readField .accz s)

/-- READ.BATT (R131). -/
def execReadBatt (s : State) : StepOutcome := .next (readField .batt s)

/-- READ.TXPWR (R131). -/
def execReadTxpwr (s : State) : StepOutcome := .next (readField .txpwr s)

/-- READ.MOVE (R131). -/
def execReadMove (s : State) : StepOutcome := .next (readField .move s)

/-- READ.SEQ (R131). -/
def execReadSeq (s : State) : StepOutcome := .next (readField .seq s)

/-- READ.ADDR (R131). -/
def execReadAddr (s : State) : StepOutcome := .next (readField .addr s)

end Sys2Proof.Machine
end

