-- ==== Sys2Proof/Machine/Dispatch.lean ====
section
/-! DEFINITION. One arm per command: the rule of the command's row in spec/30_encoding.md R88. -/

namespace Sys2Proof.Machine

def exec (i : Instr) (s : State) : Host.Outcome State Fault Refusal :=
  match i with
  | .nop => Sys2Proof.Machine.execNop s
  | .clear => Sys2Proof.Machine.execClear s
  | .decU16 => Sys2Proof.Machine.execDecU16 s
  | .decS16 => Sys2Proof.Machine.execDecS16 s
  | .decBm => Sys2Proof.Machine.execDecBm s
  | .select => Sys2Proof.Machine.execSelect s
  | .constructV3 => Sys2Proof.Machine.execConstructV3 s
  | .constructV5 => Sys2Proof.Machine.execConstructV5 s
  | .constructC5 => Sys2Proof.Machine.execConstructC5 s
  | .constructV8 => Sys2Proof.Machine.execConstructV8 s
  | .readTemp => Sys2Proof.Machine.execReadTemp s
  | .readHumid => Sys2Proof.Machine.execReadHumid s
  | .readPress => Sys2Proof.Machine.execReadPress s
  | .readAccx => Sys2Proof.Machine.execReadAccx s
  | .readAccy => Sys2Proof.Machine.execReadAccy s
  | .readAccz => Sys2Proof.Machine.execReadAccz s
  | .readBatt => Sys2Proof.Machine.execReadBatt s
  | .readTxpwr => Sys2Proof.Machine.execReadTxpwr s
  | .readMove => Sys2Proof.Machine.execReadMove s
  | .readSeq => Sys2Proof.Machine.execReadSeq s
  | .readAddr => Sys2Proof.Machine.execReadAddr s
  | .verify => Sys2Proof.Machine.execVerify s

end Sys2Proof.Machine
end

