-- ==== Sys2Proof/Machine/HostBus.lean ====
section
/-! DEFINITION. What one host action does (spec/70_reset_and_hazards.md R266): a read, a write, a write that starts a
command (spec/30_encoding.md R82), and `rst` (R260). -/

namespace Sys2Proof.Machine

/-- A host write of op to CMD: the command runs to its completion, or the word is illegal (R41, R80, R82, R83). -/
def startCommand (op : Byte) (s : State) : StepOutcome :=
  let s' := { s with cmd := op }
  match decode (commandWord op s'.cmdArg) with
  | .ok i => exec i s'
  | .error _ => .next (raiseError .illegalCommand s')

/-- The registers at their reset values; what the host still wants and the parameters stay (R260; log entry 10). -/
def resetRegisters (s : State) : State := { State.reset with pending := s.pending, cfg := s.cfg }

/-- A host write: to CMD it starts a command, to any other address it is a register write (R59). -/
def busWriteAction (addr v : Byte) (s : State) : StepOutcome :=
  if locOf addr = .cmd then startCommand v s else .next (busWrite s addr v)

/-- One host action, from a state in which it is no longer pending (R62, R266). -/
def serve (a : HostAction) (s : State) : StepOutcome :=
  match a with
  | .read addr => .next { s with response := .data (busRead s addr) }
  | .write addr v => busWriteAction addr v { s with response := .done }
  | .reset => .next (resetRegisters s)

/-- The input ports of R81 but for the clock. -/
structure BusPins where
  rst : Bool
  sel : Bool
  we : Bool
  addr : Byte
  wdata : Byte
  deriving DecidableEq, Repr

/-- The action the input ports ask for: `rst` first (log entry 10), else the access that `sel` requests (R81). -/
def BusPins.action (p : BusPins) : Option HostAction :=
  if p.rst then some .reset
  else if p.sel then (if p.we then some (.write p.addr p.wdata) else some (.read p.addr))
  else none

/-- The output port `ready` (R81). -/
def Response.ready : Response → Bool
  | .idle => false
  | .done | .data _ => true

end Sys2Proof.Machine
end

