-- ==== Sys2Proof/Machine/Step.lean ====
section
/-! DEFINITION. The step: serve the host's next action, one at a time (spec/20_memory.md R62); with none pending the core
is idle (spec/70_reset_and_hazards.md R267). -/

namespace Sys2Proof.Machine

/-- One step of RDEC (log entry 1). -/
def step (s : State) : Host.Outcome State Fault Refusal :=
  match s.pending with
  | [] => .next { s with response := .idle }
  | a :: rest => serve a { s with pending := rest }

/-- s with the word stored where the next step takes its command from: CMD_ARG holds ARG, and the host's next action is
the write of OP to CMD (R80, R265). It stands for the host's two byte writes of R90 (log entry 1). -/
def State.withFetchWord (s : State) (nbits w : Nat) : State :=
  { s with
    cmdArg := wordArg (tableWord nbits w)
    pending := .write 0x50 (wordOp (tableWord nbits w)) :: s.pending }

end Sys2Proof.Machine
end

