-- ==== Sys2Proof/Machine/AesForward.lean ====
section
/-! DEFINITION. AES128_ENC, the forward cipher. RDEC never encrypts and no command uses it (spec/00_scope.md
section 3): it stands here only so that the law of spec/44_v8_crypto.md R181, AES128_ENC(K, AES128_DEC(K, C)) = C,
can be stated. PRESUMED: the spec gives the inverse cipher only; this is FIPS-197's forward cipher (log entry 4). -/

namespace Sys2Proof.Machine

/-- SubBytes. -/
def subBytes (s : Block) : Block := Vector.ofFn fun i : Fin 16 => tableAt sbox s[i]

/-- ShiftRows: s[r][c] takes s_old[r][(c + r) mod 4]. -/
def shiftRows (s : Block) : Block :=
  Vector.ofFn fun i : Fin 16 =>
    let r := i.val % 4
    let c := i.val / 4
    s[r + 4 * ((c + r) % 4)]

/-- MixColumns on one column: the new cell of row r. -/
def mixCell (a0 a1 a2 a3 : Byte) (r : Nat) : Byte :=
  match r with
  | 0 => gfMul 0x02 a0 ^^^ gfMul 0x03 a1 ^^^ a2 ^^^ a3
  | 1 => a0 ^^^ gfMul 0x02 a1 ^^^ gfMul 0x03 a2 ^^^ a3
  | 2 => a0 ^^^ a1 ^^^ gfMul 0x02 a2 ^^^ gfMul 0x03 a3
  | _ => gfMul 0x03 a0 ^^^ a1 ^^^ a2 ^^^ gfMul 0x02 a3

/-- MixColumns. -/
def mixColumns (s : Block) : Block :=
  Vector.ofFn fun i : Fin 16 =>
    let c := i.val / 4
    mixCell s[4 * c] s[4 * c + 1] s[4 * c + 2] s[4 * c + 3] (i.val % 4)

/-- The rounds 1, .., n of the forward cipher. -/
def forwardRounds (w : List KeyWord) : Nat → Block → Block
  | 0, s => s
  | n + 1, s => addRoundKey w (n + 1) (mixColumns (shiftRows (subBytes (forwardRounds w n s))))

/-- AES128_ENC(key, block). -/
def aes128Enc (key block : Block) : Block :=
  let w := keyExpansion key
  addRoundKey w 10 (shiftRows (subBytes (forwardRounds w 9 (addRoundKey w 0 block))))

end Sys2Proof.Machine
end

