-- ==== Sys2Proof/Machine/Script.lean ====
section
/-! DEFINITION. The host-script lines and pseudo-instructions (spec/30_encoding.md R91, R92) as lists of host actions, and the
printed form of a CMD write (R93). -/

namespace Sys2Proof.Machine

/-- `WR a, v` for consecutive addresses from `addr`. -/
def writeBytes (addr : Nat) : List Byte → List HostAction
  | [] => []
  | b :: bs => .write (BitVec.ofNat 8 addr) b :: writeBytes (addr + 1) bs

/-- `RD a` for n consecutive addresses from `addr`. -/
def readBytes (addr n : Nat) : List HostAction :=
  (List.range n).map fun i => .read (BitVec.ofNat 8 (addr + i))

/-- `CMD <mnemonic>`: ARG to CMD_ARG, then OP to CMD. -/
def cmdScript (i : Instr) : List HostAction :=
  [.write 0x51 (wordArg (encode i)), .write 0x50 (wordOp (encode i))]

/-- The printed form of a host write of `op` to CMD, by the word {op, CMD_ARG} that it forms (R82, R93). -/
def printCmdWrite (op : Byte) (s : State) : String := printCommand (commandWord op s.cmdArg)

/-- `LOAD.PAYLOAD b0 .. b(n-1)`: the first 24 bytes, then PLEN = min(n, 255). -/
def loadPayload (bytes : List Byte) : List HostAction :=
  writeBytes 0x00 (bytes.take 24) ++ [.write 0x18 (BitVec.ofNat 8 (min bytes.length 255))]

/-- `LOAD.DEVID d0 .. d7, len`. -/
def loadDevid (d : Vector Byte 8) (len : Byte) : List HostAction :=
  writeBytes 0x20 d.toList ++ [.write 0x19 len]

/-- `LOAD.PASSWD p0 .. p15, len`. -/
def loadPasswd (p : Block) (len : Byte) : List HostAction :=
  writeBytes 0x30 p.toList ++ [.write 0x1A len]

/-- The operands of SETOP; an omitted one is `none`. For `inv`, `some none` is the script's `inv=none`. -/
structure SetOp where
  a : Option Half := none
  mask : Option Half := none
  inv : Option (Option Half) := none
  off : Option Wide := none
  mul : Option Wide := none
  deriving DecidableEq, Repr

/-- The bytes of a 16-bit value, most significant first. -/
def bytesOfHalf (v : Half) : List Byte := [byteOf v 8, byteOf v 0]

/-- The bytes of a 32-bit value, most significant first. -/
def bytesOfWide (v : Wide) : List Byte := [byteOf v 24, byteOf v 16, byteOf v 8, byteOf v 0]

/-- The writes of an operand that is given. -/
def writeGiven {α : Type} (addr : Nat) (bytes : α → List Byte) : Option α → List HostAction
  | none => []
  | some v => writeBytes addr (bytes v)

/-- The sentinel operand: OPINV and INV_EN = 1, or INV_EN = 0 alone for `inv=none`. -/
def setInvalid : Option (Option Half) → List HostAction
  | none => []
  | some none => [.write 0x46 0x00]
  | some (some v) => writeBytes 0x44 (bytesOfHalf v) ++ [.write 0x46 0x01]

/-- `SETOP a=A mask=M inv=I|none off=O mul=U`. -/
def setOp (o : SetOp) : List HostAction :=
  writeGiven 0x40 bytesOfHalf o.a ++ writeGiven 0x42 bytesOfHalf o.mask ++ setInvalid o.inv ++
    writeGiven 0x48 bytesOfWide o.off ++ writeGiven 0x4C bytesOfWide o.mul

/-- `RD.RESULT`. -/
def rdResult : List HostAction := readBytes 0x58 4

/-- `RD.RAW`. -/
def rdRaw : List HostAction := readBytes 0x5C 2

/-- `RD.ADDR`. -/
def rdAddr : List HostAction := readBytes 0x60 6

/-- `RD.STATUS`. -/
def rdStatus : List HostAction := readBytes 0x52 1

end Sys2Proof.Machine
end

