-- ==== Sys2Proof/Safety.lean ====
section
/-! DEFINITION. The terms the statements use: the two completions written out as the spec writes them
(spec/60_exceptions.md R226, R227), which register bytes a command may write, and the invariants of a run. -/

namespace Sys2Proof.Machine

/-- s after the writes of the normal completion, from the values themselves (R226). -/
def afterReading (valid : Bool) (value : Int) (raw : Half) (ovf : Bool) (s : State) : State :=
  { s with status := ⟨0, valid, ovf⟩, result := BitVec.ofInt 32 value, raw := raw }

/-- s after the writes of the error completion with code k (R227). -/
def afterError (k : Nat) (s : State) : State :=
  { s with
    status := ⟨BitVec.ofNat 4 k, false, false⟩
    result := 0
    raw := 0
    errlog := s.errlog ||| (1#8 <<< (k - 1)) }

/-- s after a field with sentinel `inv` was read: no reading where the pattern is the sentinel, else the value (R100). -/
def afterField (pat inv : Half) (value : Int) (s : State) : State :=
  if pat = inv then afterReading false 0 pat false s else afterReading true value pat false s

/-- s after its six address bytes were read (R167). -/
def afterAddress (a : Vector Byte 6) (s : State) : State :=
  afterReading (decide (a ≠ Vector.replicate 6 0xFF)) 0 0 false { s with addrOut := a }

/-- s without an instance (R120). -/
def withoutInstance (s : State) : State := { s with inst := ⟨false, 0⟩, fmt := 0 }

/-- s with a new instance of the format with this tag (R122, R125, R127). -/
def withInstance (tag : Byte) (s : State) : State := { s with inst := ⟨true, 0⟩, fmt := tag }

/-- s holds an instance of the format with this tag (R29, R31). -/
def hasInstance (tag : Byte) (s : State) : Prop := s.inst.constructed = true ∧ s.fmt = tag

/-- The READ commands other than READ.ADDR. -/
def valueReads : List Instr :=
  [.readTemp, .readHumid, .readPress, .readAccx, .readAccy, .readAccz, .readBatt, .readTxpwr, .readMove, .readSeq]

/-- The READ commands whose V8 rule opens the integrity gate (R200). -/
def plaintextReads : List Instr :=
  [.readTemp, .readHumid, .readPress, .readBatt, .readTxpwr, .readMove, .readSeq]

/-- The CONSTRUCT commands. -/
def constructCommands : List Instr := [.constructV3, .constructV5, .constructC5, .constructV8]

/-- The registers both completions write: STATUS, RESULT, RAW (R226, R227). -/
def isOutput : Loc → Bool
  | .status | .result _ | .raw _ => true
  | _ => false

/-- The registers the V8 stages write (R180, R190, R192). -/
def isCryptState : Loc → Bool
  | .key _ | .plain _ | .crcCalc | .inst => true
  | _ => false

/-- The registers that hold the instance (R120). -/
def isInstanceState : Loc → Bool
  | .fmt | .inst => true
  | _ => false

/-- ADDR_OUT (R40). -/
def isAddrOut : Loc → Bool
  | .addrOut _ => true
  | _ => false

/-- Whether a command may write a register byte, by the rule of its row in R88. -/
def mayWrite (i : Instr) (l : Loc) : Bool :=
  match i with
  | .nop | .decU16 | .decS16 | .decBm => isOutput l
  | .clear => isOutput l || isInstanceState l || isCryptState l || isAddrOut l || l == .errlog
  | .select | .constructV3 | .constructV5 | .constructC5 | .constructV8 =>
    isOutput l || isInstanceState l || l == .errlog
  | .readAccx | .readAccy | .readAccz => isOutput l || l == .errlog
  | .readAddr => isOutput l || isAddrOut l || l == .errlog
  | .readTemp | .readHumid | .readPress | .readBatt | .readTxpwr | .readMove | .readSeq | .verify =>
    isOutput l || isCryptState l || l == .errlog

/-- What every run keeps of the instance and its cache (R29 to R33, R127, R180, R190, R192). -/
structure InstanceInv (s : State) : Prop where
  /-- CONSTRUCTED = 0 exactly when FMT = 0x00 (R32). -/
  constructed_iff : s.inst.constructed = false ↔ s.fmt = 0x00
  /-- FMT is 0x00 or a recognized tag (R29). -/
  fmt_tag : s.fmt = 0x00 ∨ s.fmt = 0x03 ∨ s.fmt = 0x05 ∨ s.fmt = 0xC5 ∨ s.fmt = 0x08
  /-- CRYPT is never 0b11 (R30). -/
  crypt_held : s.inst.crypt ≠ 0b11
  /-- CRYPT = 0b00 whenever FMT is not 0x08 (R32). -/
  crypt_only_v8 : s.fmt ≠ 0x08 → s.inst.crypt = 0b00
  /-- The payload's length and tag still match the instance's format (R31). -/
  payload_matches : s.fmt ≠ 0x00 →
    s.payload[0] = s.fmt ∧
      s.plen = if s.fmt = 0x03 then 14 else if s.fmt = 0xC5 then 18 else 24
  /-- A V8 instance has credentials of the right lengths (R127). -/
  credential_lengths : s.fmt = 0x08 → s.devidLen = 8 ∧ s.passLen = 16
  /-- Where the stages ran, KEY, PLAIN and CRC_CALC are their results for the present inputs, and CRYPT their verdict
  (R33). -/
  cache_current : s.inst.crypt ≠ 0b00 →
    s.key = deriveKey s.passwd s.devid ∧
      s.plain = decryptBlock s.cfg.cipher s.key (cipherBlock s.payload) ∧
      s.crcCalc = crc8 s.cfg.crcTable s.plain.toList ∧
      (s.inst.crypt = 0b01 ↔ s.crcCalc = s.payload[17])

/-- What every run keeps of the status and output registers (R35, R36, R38, R39, R225 to R227). -/
structure StatusInv (s : State) : Prop where
  /-- Codes 9 to 15 are never produced (R225). -/
  code_range : s.status.err.toNat ≤ 8
  /-- An error leaves no reading, and its sticky bit is set (R227, R36). -/
  error_outputs : s.status.err ≠ 0 →
    s.status.valid = false ∧ s.raw = 0 ∧ s.errlog.getLsbD (s.status.err.toNat - 1) = true
  /-- Without a present reading RESULT is 0 and OVF is 0 (R35, R38). -/
  absent_outputs : s.status.valid = false → s.result = 0 ∧ s.status.ovf = false

end Sys2Proof.Machine
end

