-- ==== Sys2Proof/Certificates/Slice0/Obligations.lean ====
section
/-! DEFINITION. The statements for the provers. Each docstring names the rule or the section of spec/ it rests on. Where it
says DERIVED, the spec marks the sentence as its own inference or the statement joins several rules. -/

open Sys2Proof Sys2Proof.Machine

/-! ## Encoding -/

/-- DERIVED from R88: the 22 words of the opcode map, each decoded. -/
def Obligations.OpcodeMapDecodes : Prop :=
  decode 0x0000 = .ok .nop ∧ decode 0x0100 = .ok .clear ∧
  decode 0x1000 = .ok .decU16 ∧ decode 0x1100 = .ok .decS16 ∧ decode 0x1200 = .ok .decBm ∧
  decode 0x2000 = .ok .select ∧
  decode 0x2103 = .ok .constructV3 ∧ decode 0x2105 = .ok .constructV5 ∧
  decode 0x21C5 = .ok .constructC5 ∧ decode 0x2108 = .ok .constructV8 ∧
  decode 0x3000 = .ok .readTemp ∧ decode 0x3001 = .ok .readHumid ∧ decode 0x3002 = .ok .readPress ∧
  decode 0x3003 = .ok .readAccx ∧ decode 0x3004 = .ok .readAccy ∧ decode 0x3005 = .ok .readAccz ∧
  decode 0x3006 = .ok .readBatt ∧ decode 0x3007 = .ok .readTxpwr ∧ decode 0x3008 = .ok .readMove ∧
  decode 0x3009 = .ok .readSeq ∧ decode 0x300A = .ok .readAddr ∧ decode 0x3100 = .ok .verify

/-- DERIVED from R80, R83 and R88: over all 65536 words, a word decodes to a command exactly when it is that command's
word. So every command has one word, no word has two commands, and no bit of a word is dropped. -/
def Obligations.DecodeEncodeExact : Prop :=
  ∀ (w : Half) (i : Instr), decode w = .ok i ↔ encode i = w

/-- R84, with the ARG lists of R85 and R86: the legal words, by opcode and argument, and the well-formedness check
agrees. -/
def Obligations.LegalWordsByOpcode : Prop :=
  ∀ op arg : Byte,
    ((∃ i, decode (commandWord op arg) = .ok i) ↔
      (op ∈ [0x00#8, 0x01#8, 0x10#8, 0x11#8, 0x12#8, 0x20#8, 0x31#8] ∧ arg = 0x00) ∨
      (op = 0x21 ∧ arg ∈ [0x03#8, 0x05#8, 0xC5#8, 0x08#8]) ∨
      (op = 0x30 ∧ arg.toNat ≤ 10)) ∧
    (wordLegal op arg = true ↔ ∃ i, decode (commandWord op arg) = .ok i)

/-- R232: a CMD write that forms an illegal word completes with code 8 and has no other effect; the word stays in CMD and
CMD_ARG. -/
def Obligations.IllegalWordOnlyReports : Prop :=
  ∀ (s : State) (op : Byte) (rest : List HostAction),
    s.pending = .write 0x50 op :: rest →
    (∀ i, decode (commandWord op s.cmdArg) ≠ .ok i) →
    step s = .next (afterError 8 { s with cmd := op, pending := rest, response := .done })

/-! ## The step -/

/-- R82: a CMD write stores op, forms the word with CMD_ARG, and either runs the decoded command's rule to its end or
completes with ILLEGAL_COMMAND, all in one step. What the step adds around `exec`: the action is no longer pending, the
bus answers a write, CMD holds op. -/
def Obligations.StepRunsDecodedCommand : Prop :=
  ∀ (s : State) (op : Byte) (rest : List HostAction),
    s.pending = .write 0x50 op :: rest →
    let s' := { s with cmd := op, pending := rest, response := .done }
    (∀ i, decode (op ++ s.cmdArg) = .ok i → step s = exec i s') ∧
    (∀ e, decode (op ++ s.cmdArg) = .error e → step s = .next (afterError 8 s')) ∧
    (∃ t, step s = .next t)

/-- DERIVED from R59, R82, R266 and R272: every step of every state answers a next state, and serves exactly one action. The
list of pending actions, and the step with nothing pending, are the model's choice (log entry 1); so are that no step
changes the parameters (log entry 3) and that `rst` keeps the parameters and the actions after it (log entry 10). -/
def Obligations.EveryStepCompletes : Prop :=
  ∀ s : State, ∃ t, step s = .next t ∧ t.pending = s.pending.tail ∧ t.cfg = s.cfg

/-- DERIVED from R266, R267 and R272: a host program of n accesses ends after n steps, with no work left, and then the core
stays as it is. The list of pending accesses, and a step where none is pending, are the model's choice (log entry 1); so
is the idle answer of the bus after such a step (log entry 2). -/
def Obligations.HostProgramEnds : Prop :=
  ∀ s : State, ∃ t : State,
    Host.Core.run Sys2Proof.core s.pending.length s = .next t ∧ t.pending = [] ∧
      ∀ n, Host.Core.run Sys2Proof.core (n + 1) t = .next { t with response := .idle }

/-! ## Invariants -/

/-- DERIVED from R29 to R33 (R32 is the spec's inference): every step keeps the invariant of the instance and its cache. -/
def Obligations.StepKeepsInstanceInv : Prop :=
  ∀ s t : State, InstanceInv s → step s = .next t → InstanceInv t

/-- DERIVED from R35 to R39 and R225 to R227: every step keeps the invariant of the status and output registers. -/
def Obligations.StepKeepsStatusInv : Prop :=
  ∀ s t : State, StatusInv s → step s = .next t → StatusInv t

/-- DERIVED from R260 and R261: the state after reset meets both invariants. -/
def Obligations.ResetMeetsInvariants : Prop := InstanceInv State.reset ∧ StatusInv State.reset

/-- R36: ERRLOG[k-1] is set by a completion with code k; CLEAR and reset clear ERRLOG; nothing else changes it. -/
def Obligations.ErrlogIsSticky : Prop :=
  (∀ (i : Instr) (s t : State), exec i s = .next t → i ≠ .clear →
    t.errlog = if t.status.err = 0 then s.errlog else s.errlog ||| (1#8 <<< (t.status.err.toNat - 1))) ∧
  (∀ s t : State, exec .clear s = .next t → t.errlog = 0) ∧
  (∀ (op : Byte) (s t : State), startCommand op s = .next t →
    (∀ i, decode (commandWord op s.cmdArg) ≠ .ok i) → t.errlog = s.errlog ||| (1#8 <<< 7)) ∧
  (∀ (a : HostAction) (s t : State), serve a s = .next t → (∀ v, a ≠ .write 0x50 v) →
    t.errlog = if a = .reset then 0 else s.errlog) ∧
  State.reset.errlog = 0

/-! ## Frames -/

/-- DERIVED from R60 (the input registers), R41 and R226, R227, R108, R216 and 40_primitives.md section 2 (the operand
registers, CMD and CMD_ARG: no completion and no command's rule writes them): no command writes an input register, an
operand register, CMD or CMD_ARG. Nor does one change the model's own fields (log entries 1, 2 and 3). -/
def Obligations.CommandsKeepInputsAndOperands : Prop :=
  ∀ (i : Instr) (s t : State), exec i s = .next t →
    (t.payload = s.payload ∧ t.plen = s.plen ∧ t.devid = s.devid ∧ t.devidLen = s.devidLen ∧
      t.passwd = s.passwd ∧ t.passLen = s.passLen) ∧
    (t.opa = s.opa ∧ t.opmask = s.opmask ∧ t.opinv = s.opinv ∧ t.opctrl = s.opctrl ∧
      t.opoff = s.opoff ∧ t.opmul = s.opmul) ∧
    (t.cmd = s.cmd ∧ t.cmdArg = s.cmdArg ∧ t.pending = s.pending ∧ t.response = s.response ∧ t.cfg = s.cfg)

/-- DERIVED from the rules of the 22 rows and R226, R227: a command changes no register byte but those its rule writes,
said for the core's read of every register byte and for the host's read of every address. -/
def Obligations.CommandFootprint : Prop :=
  ∀ (i : Instr) (s t : State), exec i s = .next t →
    (∀ l, mayWrite i l = false → peek t l = peek s l) ∧
    (∀ a, mayWrite i (locOf a) = false → busRead t a = busRead s a)

/-! ## Control and primitive commands -/

/-- R215: NOP completes with no reading and changes nothing else; with another ARG its opcode is illegal. -/
def Obligations.NopCompletes : Prop :=
  encode .nop = 0x0000#16 ∧
  (∀ arg : Byte, arg ≠ 0x00 → ∀ i, decode (commandWord 0x00 arg) ≠ .ok i) ∧
  ∀ s : State, exec .nop s = .next (afterReading false 0 0 false s)

/-- R216: CLEAR gives these registers these values and keeps every other; with another ARG its opcode is illegal. -/
def Obligations.ClearCompletes : Prop :=
  encode .clear = 0x0100#16 ∧
  (∀ arg : Byte, arg ≠ 0x00 → ∀ i, decode (commandWord 0x01 arg) ≠ .ok i) ∧
  ∀ s : State, exec .clear s = .next
    { s with
      inst := ⟨false, 0⟩, fmt := 0
      key := Vector.replicate 16 0, plain := Vector.replicate 16 0, crcCalc := 0
      addrOut := Vector.replicate 6 0, errlog := 0
      status := ⟨0, false, false⟩, result := 0, raw := 0 }

/-- R105: DEC.U16. -/
def Obligations.DecU16Completes : Prop :=
  encode .decU16 = 0x1000#16 ∧
  (∀ arg : Byte, arg ≠ 0x00 → ∀ i, decode (commandWord 0x10 arg) ≠ .ok i) ∧
  ∀ s : State,
    let exact : Int := (s.opa.toNat + s.opoff.toInt) * s.opmul.toInt
    (s.opctrl.invEn = true ∧ s.opa = s.opinv →
      exec .decU16 s = .next (afterReading false 0 s.opa false s)) ∧
    (¬(s.opctrl.invEn = true ∧ s.opa = s.opinv) →
      exec .decU16 s = .next (afterReading true exact s.opa (decide (exact < -2147483648 ∨ 2147483647 < exact)) s))

/-- R106: DEC.S16. The sentinel is compared with the unsigned pattern, and the value is its two's-complement reading. -/
def Obligations.DecS16Completes : Prop :=
  encode .decS16 = 0x1100#16 ∧
  (∀ arg : Byte, arg ≠ 0x00 → ∀ i, decode (commandWord 0x11 arg) ≠ .ok i) ∧
  ∀ s : State,
    let value : Int := if s.opa.toNat < 32768 then s.opa.toNat else (s.opa.toNat : Int) - 65536
    let exact : Int := (value + s.opoff.toInt) * s.opmul.toInt
    (s.opctrl.invEn = true ∧ s.opa = s.opinv →
      exec .decS16 s = .next (afterReading false 0 s.opa false s)) ∧
    (¬(s.opctrl.invEn = true ∧ s.opa = s.opinv) →
      exec .decS16 s = .next (afterReading true exact s.opa (decide (exact < -2147483648 ∨ 2147483647 < exact)) s))

/-- R107: DEC.BM. -/
def Obligations.DecBmCompletes : Prop :=
  encode .decBm = 0x1200#16 ∧
  (∀ arg : Byte, arg ≠ 0x00 → ∀ i, decode (commandWord 0x12 arg) ≠ .ok i) ∧
  ∀ s : State,
    let v : Half := s.opa &&& s.opmask
    let exact : Int := (v.toNat + s.opoff.toInt) * s.opmul.toInt
    (s.opctrl.invEn = true ∧ v = s.opinv →
      exec .decBm s = .next (afterReading false 0 v false s)) ∧
    (¬(s.opctrl.invEn = true ∧ v = s.opinv) →
      exec .decBm s = .next (afterReading true exact v (decide (exact < -2147483648 ∨ 2147483647 < exact)) s))

/-- R101: the sentinel test is on the masked unsigned pattern, before sign, offset and multiplier. -/
def Obligations.SentinelTestedBeforeScaling : Prop :=
  ∀ (p mask : Half) (sgn : Sign) (inv : Option Half) (off mul : Int),
    (inv = some (p &&& mask) → decodeField p sgn mask inv off mul = ⟨false, 0, p &&& mask, false⟩) ∧
    (inv ≠ some (p &&& mask) → (decodeField p sgn mask inv off mul).valid = true) ∧
    (inv = none → (decodeField p sgn mask inv off mul).valid = true)

/-- DERIVED (40_primitives.md section 4, the law "Round trip", which the spec marks as derived): with a nonzero multiplier,
no overflow and no sentinel, the raw value is recovered from RESULT exactly. -/
def Obligations.DecodeRoundTrip : Prop :=
  ∀ (p mask : Half) (sgn : Sign) (inv : Option Half) (off mul : Int),
    mul ≠ 0 → inv ≠ some (p &&& mask) →
    (decodeField p sgn mask inv off mul).ovf = false →
    (decodeField p sgn mask inv off mul).result.toInt % mul = 0 ∧
      (decodeField p sgn mask inv off mul).result.toInt / mul - off = signedValue sgn (p &&& mask) ∧
      (decodeField p sgn mask inv off mul).raw = p &&& mask

/-- DERIVED (R103, "Only the primitive commands can overflow", which the spec marks as derived). -/
def Obligations.OnlyPrimitivesOverflow : Prop :=
  ∀ (i : Instr) (s t : State), exec i s = .next t → t.status.ovf = true →
    i = .decU16 ∨ i = .decS16 ∨ i = .decBm

/-! ## Format detection and construction -/

/-- R122: SELECT. -/
def Obligations.SelectCompletes : Prop :=
  encode .select = 0x2000#16 ∧
  ∀ s : State,
    (s.plen.toNat = 14 ∧ s.payload[0] = 0x03 →
      exec .select s = .next (afterReading false 0 0 false (withInstance 0x03 s))) ∧
    (s.plen.toNat = 24 ∧ s.payload[0] = 0x05 →
      exec .select s = .next (afterReading false 0 0 false (withInstance 0x05 s))) ∧
    (s.plen.toNat = 18 ∧ s.payload[0] = 0xC5 →
      exec .select s = .next (afterReading false 0 0 false (withInstance 0xC5 s))) ∧
    (s.plen.toNat = 24 ∧ s.payload[0] = 0x08 →
      exec .select s = .next (afterError 2 (withoutInstance s))) ∧
    (¬(s.plen.toNat = 14 ∧ s.payload[0] = 0x03) → ¬(s.plen.toNat = 24 ∧ s.payload[0] = 0x05) →
      ¬(s.plen.toNat = 18 ∧ s.payload[0] = 0xC5) → ¬(s.plen.toNat = 24 ∧ s.payload[0] = 0x08) →
      exec .select s = .next (afterError 1 (withoutInstance s)))

/-- R125: CONSTRUCT.V3, CONSTRUCT.V5 and CONSTRUCT.C5. -/
def Obligations.ConstructPlainCompletes : Prop :=
  encode .constructV3 = 0x2103#16 ∧ encode .constructV5 = 0x2105#16 ∧ encode .constructC5 = 0x21C5#16 ∧
  ∀ (s : State) (i : Instr) (tag : Byte) (len : Nat),
    (i, tag, len) ∈ [(Instr.constructV3, 0x03#8, 14), (Instr.constructV5, 0x05#8, 24), (Instr.constructC5, 0xC5#8, 18)] →
    (s.plen.toNat = len ∧ s.payload[0] = tag →
      exec i s = .next (afterReading false 0 0 false (withInstance tag s))) ∧
    (¬(s.plen.toNat = len ∧ s.payload[0] = tag) →
      exec i s = .next (afterError 4 (withoutInstance s)))

/-- R127: CONSTRUCT.V8, under both values of P_CHECK_ORDER. -/
def Obligations.ConstructEncryptedCompletes : Prop :=
  encode .constructV8 = 0x2108#16 ∧
  ∀ s : State,
    let isV8 := s.plen.toNat = 24 ∧ s.payload[0] = 0x08
    let lengthsOk := s.devidLen.toNat = 8 ∧ s.passLen.toNat = 16
    (isV8 → lengthsOk → exec .constructV8 s = .next (afterReading false 0 0 false (withInstance 0x08 s))) ∧
    (¬isV8 → lengthsOk → exec .constructV8 s = .next (afterError 4 (withoutInstance s))) ∧
    (isV8 → ¬lengthsOk → exec .constructV8 s = .next (afterError 3 (withoutInstance s))) ∧
    (¬isV8 → ¬lengthsOk → s.cfg.checkOrder = .formatFirst →
      exec .constructV8 s = .next (afterError 4 (withoutInstance s))) ∧
    (¬isV8 → ¬lengthsOk → s.cfg.checkOrder = .credentialsFirst →
      exec .constructV8 s = .next (afterError 3 (withoutInstance s)))

/-- DERIVED (41_format_select.md section 3, R126, which the spec marks as derived): for V3, V5 and C5 an explicit
construction gives an instance exactly when SELECT gives one of that format, and then both do the same. -/
def Obligations.ConstructAgreesWithSelect : Prop :=
  ∀ (s t u : State) (i : Instr) (tag : Byte),
    (i, tag) ∈ [(Instr.constructV3, 0x03#8), (Instr.constructV5, 0x05#8), (Instr.constructC5, 0xC5#8)] →
    exec i s = .next t → exec .select s = .next u →
    (t.inst.constructed = true ↔ u.fmt = tag) ∧ (u.fmt = tag → u = t)

/-- R128: no construction decrypts, derives a key or computes a CRC, and CRYPT is NOT_EVALUATED after it. -/
def Obligations.ConstructionDoesNotDecrypt : Prop :=
  ∀ (s t : State) (i : Instr), i ∈ Instr.select :: constructCommands → exec i s = .next t →
    t.inst.crypt = 0b00 ∧ t.key = s.key ∧ t.plain = s.plain ∧ t.crcCalc = s.crcCalc

/-! ## Field reads -/

/-- R233: without an instance every READ and VERIFY completes with NOT_CONSTRUCTED (READ.ADDR with ADDR_OUT zeroed,
R131). -/
def Obligations.ReadWithoutInstance : Prop :=
  ∀ s : State, s.inst.constructed = false →
    (∀ i ∈ Instr.verify :: valueReads, exec i s = .next (afterError 6 s)) ∧
    exec .readAddr s = .next (afterError 6 { s with addrOut := Vector.replicate 6 0 })

/-- R234 with the "no" entries of R130: a field the instance's format lacks, and VERIFY on an instance that is not V8. -/
def Obligations.ReadFieldNotInFormat : Prop :=
  ∀ s : State, s.inst.constructed = true →
    (s.fmt = 0x03 → ∀ i ∈ [Instr.readTxpwr, .readMove, .readSeq], exec i s = .next (afterError 7 s)) ∧
    (s.fmt = 0x03 → exec .readAddr s = .next (afterError 7 { s with addrOut := Vector.replicate 6 0 })) ∧
    (s.fmt = 0xC5 ∨ s.fmt = 0x08 →
      ∀ i ∈ [Instr.readAccx, .readAccy, .readAccz], exec i s = .next (afterError 7 s)) ∧
    (s.fmt ≠ 0x08 → exec .verify s = .next (afterError 7 s))

/-- R141, R143 to R147: the V3 fields without a sentinel. -/
def Obligations.V3FieldsComplete : Prop :=
  encode .readHumid = 0x3001#16 ∧ encode .readPress = 0x3002#16 ∧ encode .readAccx = 0x3003#16 ∧
  encode .readAccy = 0x3004#16 ∧ encode .readAccz = 0x3005#16 ∧ encode .readBatt = 0x3006#16 ∧
  ∀ s : State, hasInstance 0x03 s →
    exec .readHumid s = .next (afterReading true (s.payload[1].toNat * 5000) (0#8 ++ s.payload[1]) false s) ∧
    exec .readPress s = .next
      (afterReading true (((s.payload[4] ++ s.payload[5]).toNat + 50000) * 100) (s.payload[4] ++ s.payload[5]) false s) ∧
    exec .readAccx s = .next
      (afterReading true ((s.payload[6] ++ s.payload[7]).toInt * 10) (s.payload[6] ++ s.payload[7]) false s) ∧
    exec .readAccy s = .next
      (afterReading true ((s.payload[8] ++ s.payload[9]).toInt * 10) (s.payload[8] ++ s.payload[9]) false s) ∧
    exec .readAccz s = .next
      (afterReading true ((s.payload[10] ++ s.payload[11]).toInt * 10) (s.payload[10] ++ s.payload[11]) false s) ∧
    exec .readBatt s = .next
      (afterReading true ((s.payload[12] ++ s.payload[13]).toNat * 10) (s.payload[12] ++ s.payload[13]) false s)

/-- R142: the V3 temperature, with the sign in bit 7 of byte 2, the whole degrees in its bits 6:0 and the hundredths in
byte 3; absent where byte 3 is above 99. -/
def Obligations.V3TemperatureCompletes : Prop :=
  encode .readTemp = 0x3000#16 ∧
  ∀ s : State, hasInstance 0x03 s →
    let mag : Int := (((s.payload[2].toNat % 128) * 100 + s.payload[3].toNat) * 100 : Nat)
    (99 < s.payload[3].toNat →
      exec .readTemp s = .next (afterReading false 0 (s.payload[2] ++ s.payload[3]) false s)) ∧
    (s.payload[3].toNat ≤ 99 → s.payload[2].toNat < 128 →
      exec .readTemp s = .next (afterReading true mag (s.payload[2] ++ s.payload[3]) false s)) ∧
    (s.payload[3].toNat ≤ 99 → 128 ≤ s.payload[2].toNat →
      exec .readTemp s = .next (afterReading true (-mag) (s.payload[2] ++ s.payload[3]) false s))

/-- R156 to R161: the V5 temperature, humidity, pressure and accelerations. -/
def Obligations.V5SensorFieldsComplete : Prop :=
  encode .readTemp = 0x3000#16 ∧ encode .readHumid = 0x3001#16 ∧ encode .readPress = 0x3002#16 ∧
  encode .readAccx = 0x3003#16 ∧ encode .readAccy = 0x3004#16 ∧ encode .readAccz = 0x3005#16 ∧
  ∀ s : State, hasInstance 0x05 s →
    let w := fun (i : Fin 23) => s.payload[i.val] ++ s.payload[i.val + 1]
    exec .readTemp s = .next (afterField (w 1) 0x8000 ((w 1).toInt * 50) s) ∧
    exec .readHumid s = .next (afterField (w 3) 0xFFFF ((w 3).toNat * 25) s) ∧
    exec .readPress s = .next (afterField (w 5) 0xFFFF (((w 5).toNat + 50000) * 100) s) ∧
    exec .readAccx s = .next (afterField (w 7) 0x8000 ((w 7).toInt * 10) s) ∧
    exec .readAccy s = .next (afterField (w 9) 0x8000 ((w 9).toInt * 10) s) ∧
    exec .readAccz s = .next (afterField (w 11) 0x8000 ((w 11).toInt * 10) s)

/-- R163 to R166: the V5 power word's two fields and the two counters. -/
def Obligations.V5PowerAndCountersComplete : Prop :=
  encode .readTxpwr = 0x3007#16 ∧ encode .readBatt = 0x3006#16 ∧ encode .readMove = 0x3008#16 ∧
  encode .readSeq = 0x3009#16 ∧
  ∀ s : State, hasInstance 0x05 s →
    let pw := (s.payload[13] ++ s.payload[14]).toNat
    let tx := BitVec.ofNat 16 (pw % 32)
    let bat := BitVec.ofNat 16 (pw / 32)
    exec .readTxpwr s = .next (afterField tx 31 ((tx.toNat - 20) * 20000) s) ∧
    exec .readBatt s = .next (afterField bat 2047 ((bat.toNat + 1600) * 10) s) ∧
    exec .readMove s = .next (afterField (0#8 ++ s.payload[15]) 0x00FF (s.payload[15].toNat * 10000) s) ∧
    exec .readSeq s = .next
      (afterField (s.payload[16] ++ s.payload[17]) 0xFFFF ((s.payload[16] ++ s.payload[17]).toNat * 10000) s)

/-- R169 to R171 and R173 to R176: the C5 fields. -/
def Obligations.C5FieldsComplete : Prop :=
  encode .readTemp = 0x3000#16 ∧ encode .readHumid = 0x3001#16 ∧ encode .readPress = 0x3002#16 ∧
  encode .readTxpwr = 0x3007#16 ∧ encode .readBatt = 0x3006#16 ∧ encode .readMove = 0x3008#16 ∧
  encode .readSeq = 0x3009#16 ∧
  ∀ s : State, hasInstance 0xC5 s →
    let w := fun (i : Fin 23) => s.payload[i.val] ++ s.payload[i.val + 1]
    let tx := BitVec.ofNat 16 ((w 7).toNat % 32)
    let bat := BitVec.ofNat 16 ((w 7).toNat / 32)
    exec .readTemp s = .next (afterField (w 1) 0x8000 ((w 1).toInt * 50) s) ∧
    exec .readHumid s = .next (afterField (w 3) 0xFFFF ((w 3).toNat * 25) s) ∧
    exec .readPress s = .next (afterField (w 5) 0xFFFF (((w 5).toNat + 50000) * 100) s) ∧
    exec .readTxpwr s = .next (afterField tx 31 ((tx.toNat - 20) * 20000) s) ∧
    exec .readBatt s = .next (afterField bat 2047 ((bat.toNat + 1600) * 10) s) ∧
    exec .readMove s = .next (afterField (0#8 ++ s.payload[9]) 0x00FF (s.payload[9].toNat * 10000) s) ∧
    exec .readSeq s = .next (afterField (w 10) 0xFFFF ((w 10).toNat * 10000) s)

/-- R167, R177 and R209: READ.ADDR on V5, C5 and V8. On V8 it runs no stage, whatever CRYPT is. -/
def Obligations.AddressReadsComplete : Prop :=
  encode .readAddr = 0x300A#16 ∧
  ∀ s : State,
    (hasInstance 0x05 s ∨ hasInstance 0x08 s →
      exec .readAddr s = .next (afterAddress
        #v[s.payload[18], s.payload[19], s.payload[20], s.payload[21], s.payload[22], s.payload[23]] s)) ∧
    (hasInstance 0xC5 s →
      exec .readAddr s = .next (afterAddress
        #v[s.payload[12], s.payload[13], s.payload[14], s.payload[15], s.payload[16], s.payload[17]] s))

/-! ## V8 -/

/-- R180: the key a first plaintext access leaves, byte by byte. -/
def Obligations.StageOneDerivesKey : Prop :=
  ∀ s t : State, hasInstance 0x08 s → s.inst.crypt = 0b00 → exec .verify s = .next t →
    (∀ i : Fin 8, t.key[i.val] = s.passwd[i.val] ^^^ s.devid[i.val]) ∧
    (∀ i : Fin 8, t.key[i.val + 8] = s.passwd[i.val + 8])

/-- DERIVED from R180 and R190 to R193: the lazy gate runs the three stages where CRYPT is NOT_EVALUATED and nothing
otherwise. -/
def Obligations.EnsurePlainRunsStagesOnce : Prop :=
  ∀ s : State,
    (s.inst.crypt = 0b00 →
      ∃ key plain : Block, ∃ crc : Byte,
        key = deriveKey s.passwd s.devid ∧
        plain = decryptBlock s.cfg.cipher key (Vector.ofFn fun j : Fin 16 => s.payload[j.val + 1]) ∧
        crc = plain.toList.foldl (fun c b => tableAt s.cfg.crcTable (c ^^^ b)) 0 ∧
        (crc = s.payload[17] →
          ensurePlain s = { s with key := key, plain := plain, crcCalc := crc, inst := ⟨s.inst.constructed, 0b01⟩ }) ∧
        (crc ≠ s.payload[17] →
          ensurePlain s = { s with key := key, plain := plain, crcCalc := crc, inst := ⟨s.inst.constructed, 0b10⟩ })) ∧
    (s.inst.crypt ≠ 0b00 → ensurePlain s = s) ∧
    ensurePlain (ensurePlain s) = ensurePlain s

/-- R194: VERIFY, in the order of its checks. -/
def Obligations.VerifyCompletes : Prop :=
  encode .verify = 0x3100#16 ∧
  ∀ s : State,
    (s.inst.constructed = false → exec .verify s = .next (afterError 6 s)) ∧
    (s.inst.constructed = true → s.fmt ≠ 0x08 → exec .verify s = .next (afterError 7 s)) ∧
    (hasInstance 0x08 s → (ensurePlain s).inst.crypt = 0b01 →
      exec .verify s = .next (afterReading false 0 0 false (ensurePlain s))) ∧
    (hasInstance 0x08 s → (ensurePlain s).inst.crypt ≠ 0b01 →
      exec .verify s = .next (afterError 5 (ensurePlain s)))

/-- R201 to R203 and R205 to R208: the V8 plaintext fields, where the integrity check passes and where it does not. -/
def Obligations.V8FieldsComplete : Prop :=
  encode .readTemp = 0x3000#16 ∧ encode .readHumid = 0x3001#16 ∧ encode .readPress = 0x3002#16 ∧
  encode .readTxpwr = 0x3007#16 ∧ encode .readBatt = 0x3006#16 ∧ encode .readMove = 0x3008#16 ∧
  encode .readSeq = 0x3009#16 ∧
  ∀ s t : State, hasInstance 0x08 s → ensurePlain s = t →
    let w := fun (i : Fin 15) => t.plain[i.val] ++ t.plain[i.val + 1]
    let tx := BitVec.ofNat 16 ((w 6).toNat % 32)
    let bat := BitVec.ofNat 16 ((w 6).toNat / 32)
    (t.inst.crypt = 0b01 →
      exec .readTemp s = .next (afterField (w 0) 0x8000 ((w 0).toInt * 50) t) ∧
      exec .readHumid s = .next (afterField (w 2) 0xFFFF ((w 2).toNat * 25) t) ∧
      exec .readPress s = .next (afterField (w 4) 0xFFFF (((w 4).toNat + 50000) * 100) t) ∧
      exec .readTxpwr s = .next (afterField tx 31 ((tx.toNat - 20) * 20000) t) ∧
      exec .readBatt s = .next (afterField bat 2047 ((bat.toNat + 1600) * 10) t) ∧
      exec .readMove s = .next (afterField (w 8) 0xFFFF ((w 8).toNat * 10000) t) ∧
      exec .readSeq s = .next (afterField (w 10) 0xFFFF ((w 10).toNat * 10000) t)) ∧
    (t.inst.crypt ≠ 0b01 → ∀ i ∈ plaintextReads, exec i s = .next (afterError 5 t))

/-- R200: where the check does not pass, every plaintext field gives INTEGRITY, before its sentinel test, the stages'
results stay, and every later plaintext READ fails again. -/
def Obligations.V8FieldsGated : Prop :=
  ∀ s : State, hasInstance 0x08 s → (ensurePlain s).inst.crypt ≠ 0b01 →
    ∀ i ∈ plaintextReads, exec i s = .next (afterError 5 (ensurePlain s)) ∧
      ∀ j ∈ plaintextReads, exec j (afterError 5 (ensurePlain s)) = .next (afterError 5 (ensurePlain s))

/-- DERIVED (R194's corner case): VERIFY followed by a plaintext READ gives the same state as the READ alone. -/
def Obligations.VerifyTransparentToReads : Prop :=
  ∀ (s t : State) (i : Instr), hasInstance 0x08 s → i ∈ plaintextReads → exec .verify s = .next t →
    exec i t = exec i s

/-- DERIVED (45_layout_v8.md, the law of the cleartext asymmetry, R211, which the spec marks as derived): with a CRC that
does not match, every plaintext READ and VERIFY gives INTEGRITY, and READ.ADDR gives the STATUS and ADDR_OUT that any
V8 instance with the same address bytes gives. -/
def Obligations.CleartextAsymmetry : Prop :=
  ∀ s : State, hasInstance 0x08 s → s.inst.crypt = 0b00 →
    crc8 s.cfg.crcTable
      (decryptBlock s.cfg.cipher (deriveKey s.passwd s.devid) (cipherBlock s.payload)).toList ≠ s.payload[17] →
    (∀ i ∈ Instr.verify :: plaintextReads, ∃ t, exec i s = .next t ∧ t.status = ⟨5, false, false⟩ ∧ t.inst.crypt = 0b10) ∧
    (∀ u : State, hasInstance 0x08 u → (∀ j : Fin 6, u.payload[j.val + 18] = s.payload[j.val + 18]) →
      ∃ t v, exec .readAddr s = .next t ∧ exec .readAddr u = .next v ∧ t.status = v.status ∧ t.addrOut = v.addrOut ∧
        t.status.err = 0)

/-- DERIVED (44_v8_crypto.md section 5, the first law, R195, which the spec marks as derived): a changed password, or a
changed device identifier, gives a changed key. -/
def Obligations.DerivedKeyInjective : Prop :=
  (∀ (p p' : Block) (d : Vector Byte 8), p ≠ p' → deriveKey p d ≠ deriveKey p' d) ∧
  (∀ (p : Block) (d d' : Vector Byte 8), d ≠ d' → deriveKey p d ≠ deriveKey p d')

/-- DERIVED (44_v8_crypto.md section 2 and R191, supplied from general knowledge; log entries 3 and 4): the inverse S-box
inverts the S-box, and the default CRC table is the one polynomial 0x07 generates. -/
def Obligations.DefaultTablesAreAsDefined : Prop :=
  (∀ x : Byte, tableAt invSbox (tableAt sbox x) = x) ∧
  (∀ x : Byte, tableAt crc8Table x =
    (List.range 8).foldl (fun c _ => if c.msb then (c <<< 1) ^^^ 0x07 else c <<< 1) x)

/-- DERIVED (44_v8_crypto.md R181, supplied from general knowledge; the forward cipher is the model's, log entry 4): for
any key and block, encrypting the decrypted block gives the block back. It is about the default of the parameter
AES128_DEC. -/
def Obligations.AesForwardInvertsInverse : Prop :=
  ∀ key block : Block, aes128Enc key (aes128Dec key block) = block

/-! ## Laws over formats and runs -/

/-- DERIVED (43_layout_v5_c5.md section 3, "C5 and V5 agree", R179, which the spec marks as derived). -/
def Obligations.C5AgreesWithV5 : Prop :=
  ∀ (s u t v : State) (i : Instr),
    hasInstance 0x05 s → hasInstance 0xC5 u →
    (∀ j : Fin 6, u.payload[j.val + 1] = s.payload[j.val + 1]) →
    (∀ j : Fin 11, u.payload[j.val + 7] = s.payload[j.val + 13]) →
    i ∈ Instr.readAddr :: plaintextReads → exec i s = .next t → exec i u = .next v →
    v.status = t.status ∧ v.result = t.result ∧ v.raw = t.raw ∧ (i = .readAddr → v.addrOut = t.addrOut)

/-- DERIVED (43_layout_v5_c5.md section 3, "All-sentinel payloads", R178, which the spec marks as derived): on the V5
all-sentinel payload every READ gives no reading and no error, and so on the C5 one every READ of a C5 field. -/
def Obligations.AllSentinelPayloadIsAbsent : Prop :=
  (∀ (s : State) (i : Instr), hasInstance 0x05 s → i ∈ Instr.readAddr :: valueReads →
    s.payload = #v[0x05, 0x80, 0x00, 0xFF, 0xFF, 0xFF, 0xFF, 0x80, 0x00, 0x80, 0x00, 0x80, 0x00, 0xFF, 0xFF, 0xFF,
      0xFF, 0xFF, 0xFF, 0xFF, 0xFF, 0xFF, 0xFF, 0xFF] →
    ∃ t, exec i s = .next t ∧ t.status = ⟨0, false, false⟩ ∧ t.result = 0 ∧ t.errlog = s.errlog) ∧
  (∀ (s : State) (i : Instr), hasInstance 0xC5 s → i ∈ Instr.readAddr :: plaintextReads →
    (∀ j : Fin 17, s.payload[j.val + 1] = if j.val = 0 then 0x80 else if j.val = 1 then 0x00 else 0xFF) →
    ∃ t, exec i s = .next t ∧ t.status = ⟨0, false, false⟩ ∧ t.result = 0 ∧ t.errlog = s.errlog)

/-- DERIVED from R110 (the primitives), R122, R125 and R127 (SELECT, CONSTRUCT), R129 and R193 (READ, VERIFY), R215 (NOP) and
R216 (CLEAR): the rule of any command, run again at once on the state it left, leaves that state. The name speaks of
the rule's effect on the state only. A CMD write is not idempotent, as R59 says: two writes of one CMD value run the
command twice, and here the second run gives the state of the first. -/
def Obligations.EveryCommandIsIdempotent : Prop :=
  ∀ (i : Instr) (s t : State), exec i s = .next t → exec i t = .next t

/-- DERIVED (41_format_select.md section 4, R129, which the spec marks as derived): an instance, its format and its inputs
outlive every step but a write to an input register, a SELECT, a CONSTRUCT, a CLEAR and reset. -/
def Obligations.InstanceEndsOnlyByItsRules : Prop :=
  ∀ s t : State, s.inst.constructed = true → step s = .next t →
    (∀ rest, s.pending ≠ .reset :: rest) →
    (∀ a v rest, s.pending = .write a v :: rest → isInput (locOf a) = false) →
    (∀ op rest, s.pending = .write 0x50 op :: rest →
      ∀ i ∈ Instr.clear :: Instr.select :: constructCommands, decode (commandWord op s.cmdArg) ≠ .ok i) →
    t.inst.constructed = true ∧ t.fmt = s.fmt ∧ t.payload = s.payload ∧ t.plen = s.plen ∧ t.devid = s.devid ∧
      t.devidLen = s.devidLen ∧ t.passwd = s.passwd ∧ t.passLen = s.passLen

/-- R225: which command raises which code, that codes 9 to 15 are never produced, and the sticky bit. -/
def Obligations.ErrorCodesByCommand : Prop :=
  (∀ (i : Instr) (s t : State), exec i s = .next t →
    t.status.err.toNat ≤ 7 ∧
    (t.status.err = 1 → i = .select) ∧ (t.status.err = 2 → i = .select) ∧
    (t.status.err = 3 → i = .constructV8) ∧ (t.status.err = 4 → i ∈ constructCommands) ∧
    (t.status.err = 5 → i ∈ Instr.verify :: plaintextReads ∧ s.fmt = 0x08) ∧
    (t.status.err = 6 → i ∈ Instr.verify :: Instr.readAddr :: valueReads) ∧
    (t.status.err = 7 → i ∈ Instr.verify :: Instr.readAddr :: valueReads) ∧
    (t.status.err ≠ 0 → t.errlog.getLsbD (t.status.err.toNat - 1) = true)) ∧
  (∀ (op : Byte) (s t : State), (∀ i, decode (commandWord op s.cmdArg) ≠ .ok i) → startCommand op s = .next t →
    t.status.err = 8 ∧ t.errlog.getLsbD 7 = true)

/-! ## The register space and reset -/

/-- DERIVED from R260, R9 and R57: `rst` gives every register its reset value, from every state; and what each register byte
then reads by the core and each address by the host. That `rst` keeps `pending` and `cfg` (log entry 10) and leaves the
bus idle (log entries 2 and 10) are the model's DESIGN CHOICES; that the core reads 0 at a reserved location is DEDUCED
(log entry 9). -/
def Obligations.ResetSetsEveryRegister : Prop :=
  (∀ (s : State) (rest : List HostAction), s.pending = .reset :: rest →
    step s = .next { State.reset with pending := rest, cfg := s.cfg }) ∧
  (∀ l : Loc, peek State.reset l = if l = .manufId 0 then 0x04 else if l = .manufId 1 then 0x99 else 0x00) ∧
  (∀ a : Byte, busRead State.reset a = if a = 0x66 then 0x04 else if a = 0x67 then 0x99 else 0x00)

/-- R58: a write to an input register stores the byte, discards the instance, even where the value is the same, and
changes nothing else. -/
def Obligations.InputWriteDiscardsInstance : Prop :=
  ∀ (s : State) (a v : Byte) (rest : List HostAction),
    a.toNat < 0x1B ∨ (0x20 ≤ a.toNat ∧ a.toNat < 0x28) ∨ (0x30 ≤ a.toNat ∧ a.toNat < 0x40) →
    s.pending = .write a v :: rest →
    ∃ t, step s = .next t ∧ busRead t a = v ∧ t.inst = ⟨false, 0b00⟩ ∧ t.fmt = 0x00 ∧
      (∀ l, l ≠ locOf a → l ≠ .inst → l ≠ .fmt → peek t l = peek s l) ∧
      t.pending = rest ∧ t.response = .done ∧ t.cfg = s.cfg

/-- DERIVED from R59, R42 and R46: a write to an operand register or to CMD_ARG only stores the byte, of OPCTRL its bit 0. -/
def Obligations.OperandWriteOnlyStores : Prop :=
  ∀ (s : State) (a v : Byte) (rest : List HostAction),
    (0x40 ≤ a.toNat ∧ a.toNat < 0x50 ∧ a ≠ 0x47) ∨ a = 0x51 →
    s.pending = .write a v :: rest →
    ∃ t, step s = .next t ∧ busRead t a = (if a = 0x46 then v &&& 0x01 else v) ∧
      (∀ l, l ≠ locOf a → peek t l = peek s l) ∧ t.pending = rest ∧ t.response = .done ∧ t.cfg = s.cfg

/-- R57: a reserved address and the KEY window read 0x00, reserved bits read 0, and a write to a reserved address, the KEY
window or a read-only register changes no register. -/
def Obligations.ReservedAndReadOnlyAddresses : Prop :=
  (∀ (s : State) (a : Byte),
    (0x1B ≤ a.toNat ∧ a.toNat < 0x20) ∨ (0x28 ≤ a.toNat ∧ a.toNat < 0x30) ∨ a = 0x47 ∨ a = 0x57 ∨ a = 0x5E ∨ a = 0x5F ∨
      (0x68 ≤ a.toNat ∧ a.toNat < 0x80) ∨ 0x90 ≤ a.toNat → busRead s a = 0x00) ∧
  (∀ s : State, busRead s 0x46 &&& 0xFE = 0 ∧ busRead s 0x52 &&& 0xC0 = 0 ∧ busRead s 0x55 &&& 0xF8 = 0) ∧
  (∀ (s : State) (a v : Byte) (rest : List HostAction),
    (0x1B ≤ a.toNat ∧ a.toNat < 0x20) ∨ (0x28 ≤ a.toNat ∧ a.toNat < 0x30) ∨ a = 0x47 ∨ 0x52 ≤ a.toNat →
    s.pending = .write a v :: rest → step s = .next { s with pending := rest, response := .done })

/-- DERIVED from R59 and R62: a host read gives the byte and changes no register. -/
def Obligations.HostReadHasNoSideEffect : Prop :=
  ∀ (s : State) (a : Byte) (rest : List HostAction), s.pending = .read a :: rest →
    step s = .next { s with pending := rest, response := .data (busRead s a) } ∧
    (∀ t, step s = .next t → ∀ b, busRead t b = busRead s b)

/-- DERIVED from R54 and R9 (its MemRead): the multi-byte host registers have their most significant byte at their lowest
address, and the core's read of all their bytes gives the same number. -/
def Obligations.HostRegistersAreBigEndian : Prop :=
  ∀ s : State,
    busRead s 0x40 ++ busRead s 0x41 = s.opa ∧ busRead s 0x42 ++ busRead s 0x43 = s.opmask ∧
    busRead s 0x44 ++ busRead s 0x45 = s.opinv ∧
    busRead s 0x48 ++ busRead s 0x49 ++ busRead s 0x4A ++ busRead s 0x4B = s.opoff ∧
    busRead s 0x4C ++ busRead s 0x4D ++ busRead s 0x4E ++ busRead s 0x4F = s.opmul ∧
    busRead s 0x58 ++ busRead s 0x59 ++ busRead s 0x5A ++ busRead s 0x5B = s.result ∧
    busRead s 0x5C ++ busRead s 0x5D = s.raw ∧
    busRead s 0x66 ++ busRead s 0x67 = 0x0499#16 ∧
    memRead s 0x40 2 = s.opa.toNat ∧ memRead s 0x42 2 = s.opmask.toNat ∧ memRead s 0x44 2 = s.opinv.toNat ∧
    memRead s 0x48 4 = s.opoff.toNat ∧ memRead s 0x4C 4 = s.opmul.toNat ∧ memRead s 0x58 4 = s.result.toNat ∧
    memRead s 0x5C 2 = s.raw.toNat ∧ memRead s 0x66 2 = 0x0499

/-- DERIVED from R27, R57 and R180: no host action can tell one content of KEY from another, since the next stage 1 writes
KEY before stage 2 reads it. -/
def Obligations.KeyIsUnobservable : Prop :=
  ∀ (s t : State) (k : Block), step s = .next t →
    (∃ k' : Block, step { s with key := k } = .next { t with key := k' }) ∧
    (∀ a, busRead { s with key := k } a = busRead s a)

/-- DERIVED (30_encoding.md section 5, R92): the LOAD.PAYLOAD script of at most 24 bytes loads them and PLEN, leaves the
later payload bytes, and leaves no instance. -/
def Obligations.LoadPayloadScriptLoads : Prop :=
  ∀ (s : State) (bytes : List Byte), bytes.length ≤ 24 → s.pending = loadPayload bytes →
    ∃ t : State, Host.Core.run Sys2Proof.core (bytes.length + 1) s = .next t ∧ t.pending = [] ∧
      (∀ (i : Fin 24) (h : i.val < bytes.length), t.payload[i.val] = bytes[i.val]) ∧
      (∀ i : Fin 24, bytes.length ≤ i.val → t.payload[i.val] = s.payload[i.val]) ∧
      t.plen.toNat = bytes.length ∧ t.inst = ⟨false, 0b00⟩ ∧ t.fmt = 0x00

/-- DERIVED from R51, R30, R35, R46 and R9: which register the host reads at each address, but for the multi-byte registers
(HostRegistersAreBigEndian) and the reserved addresses and the KEY window (ReservedAndReadOnlyAddresses); and that the
core reads the same byte, and KEY at its window. That the core reads 0 at a reserved address is DEDUCED (log entry 9). -/
def Obligations.RegisterMapReads : Prop :=
  ∀ s : State,
    ((∀ i : Fin 24, busRead s (BitVec.ofNat 8 i.val) = s.payload[i.val]) ∧
      busRead s 0x18 = s.plen ∧ busRead s 0x19 = s.devidLen ∧ busRead s 0x1A = s.passLen ∧
      (∀ i : Fin 8, busRead s (BitVec.ofNat 8 (0x20 + i.val)) = s.devid[i.val]) ∧
      (∀ i : Fin 16, busRead s (BitVec.ofNat 8 (0x30 + i.val)) = s.passwd[i.val])) ∧
    (busRead s 0x46 = 0b0000000#7 ++ BitVec.ofBool s.opctrl.invEn ∧
      busRead s 0x50 = s.cmd ∧ busRead s 0x51 = s.cmdArg) ∧
    (busRead s 0x52 = 0b00#2 ++ BitVec.ofBool s.status.ovf ++ BitVec.ofBool s.status.valid ++ s.status.err ∧
      busRead s 0x53 = s.errlog ∧ busRead s 0x54 = s.fmt ∧
      busRead s 0x55 = 0b00000#5 ++ s.inst.crypt ++ BitVec.ofBool s.inst.constructed ∧
      busRead s 0x56 = s.crcCalc ∧
      (∀ i : Fin 6, busRead s (BitVec.ofNat 8 (0x60 + i.val)) = s.addrOut[i.val]) ∧
      (∀ i : Fin 16, busRead s (BitVec.ofNat 8 (0x80 + i.val)) = s.plain[i.val])) ∧
    (∀ a : Byte, a.toNat < 0x70 ∨ 0x80 ≤ a.toNat → memRead s a 1 = (busRead s a).toNat) ∧
    (∀ i : Fin 16, memRead s (BitVec.ofNat 8 (0x70 + i.val)) 1 = s.key[i.val].toNat)
end

