-- ==== Sys2Proof/Laws/State.lean ====
section
/-! SUPPORT. What each named update of the state leaves in each field: one lemma per update and field, so that no later proof
unfolds a record update. -/

namespace Sys2Proof.Machine

/-! `finish` -/

@[simp] theorem finish_payload (r : Reading) (s : State) : (finish r s).payload = s.payload := rfl
@[simp] theorem finish_plen (r : Reading) (s : State) : (finish r s).plen = s.plen := rfl
@[simp] theorem finish_devidLen (r : Reading) (s : State) : (finish r s).devidLen = s.devidLen := rfl
@[simp] theorem finish_passLen (r : Reading) (s : State) : (finish r s).passLen = s.passLen := rfl
@[simp] theorem finish_devid (r : Reading) (s : State) : (finish r s).devid = s.devid := rfl
@[simp] theorem finish_passwd (r : Reading) (s : State) : (finish r s).passwd = s.passwd := rfl
@[simp] theorem finish_key (r : Reading) (s : State) : (finish r s).key = s.key := rfl
@[simp] theorem finish_plain (r : Reading) (s : State) : (finish r s).plain = s.plain := rfl
@[simp] theorem finish_fmt (r : Reading) (s : State) : (finish r s).fmt = s.fmt := rfl
@[simp] theorem finish_inst (r : Reading) (s : State) : (finish r s).inst = s.inst := rfl
@[simp] theorem finish_crcCalc (r : Reading) (s : State) : (finish r s).crcCalc = s.crcCalc := rfl
@[simp] theorem finish_status (r : Reading) (s : State) : (finish r s).status = { err := 0, valid := r.valid, ovf := r.ovf } := rfl
@[simp] theorem finish_errlog (r : Reading) (s : State) : (finish r s).errlog = s.errlog := rfl
@[simp] theorem finish_result (r : Reading) (s : State) : (finish r s).result = r.result := rfl
@[simp] theorem finish_raw (r : Reading) (s : State) : (finish r s).raw = r.raw := rfl
@[simp] theorem finish_addrOut (r : Reading) (s : State) : (finish r s).addrOut = s.addrOut := rfl
@[simp] theorem finish_cmd (r : Reading) (s : State) : (finish r s).cmd = s.cmd := rfl
@[simp] theorem finish_cmdArg (r : Reading) (s : State) : (finish r s).cmdArg = s.cmdArg := rfl
@[simp] theorem finish_opa (r : Reading) (s : State) : (finish r s).opa = s.opa := rfl
@[simp] theorem finish_opmask (r : Reading) (s : State) : (finish r s).opmask = s.opmask := rfl
@[simp] theorem finish_opinv (r : Reading) (s : State) : (finish r s).opinv = s.opinv := rfl
@[simp] theorem finish_opctrl (r : Reading) (s : State) : (finish r s).opctrl = s.opctrl := rfl
@[simp] theorem finish_opoff (r : Reading) (s : State) : (finish r s).opoff = s.opoff := rfl
@[simp] theorem finish_opmul (r : Reading) (s : State) : (finish r s).opmul = s.opmul := rfl
@[simp] theorem finish_pending (r : Reading) (s : State) : (finish r s).pending = s.pending := rfl
@[simp] theorem finish_response (r : Reading) (s : State) : (finish r s).response = s.response := rfl
@[simp] theorem finish_cfg (r : Reading) (s : State) : (finish r s).cfg = s.cfg := rfl

/-! `raiseError` -/

@[simp] theorem raiseError_payload (e : ErrCode) (s : State) : (raiseError e s).payload = s.payload := rfl
@[simp] theorem raiseError_plen (e : ErrCode) (s : State) : (raiseError e s).plen = s.plen := rfl
@[simp] theorem raiseError_devidLen (e : ErrCode) (s : State) : (raiseError e s).devidLen = s.devidLen := rfl
@[simp] theorem raiseError_passLen (e : ErrCode) (s : State) : (raiseError e s).passLen = s.passLen := rfl
@[simp] theorem raiseError_devid (e : ErrCode) (s : State) : (raiseError e s).devid = s.devid := rfl
@[simp] theorem raiseError_passwd (e : ErrCode) (s : State) : (raiseError e s).passwd = s.passwd := rfl
@[simp] theorem raiseError_key (e : ErrCode) (s : State) : (raiseError e s).key = s.key := rfl
@[simp] theorem raiseError_plain (e : ErrCode) (s : State) : (raiseError e s).plain = s.plain := rfl
@[simp] theorem raiseError_fmt (e : ErrCode) (s : State) : (raiseError e s).fmt = s.fmt := rfl
@[simp] theorem raiseError_inst (e : ErrCode) (s : State) : (raiseError e s).inst = s.inst := rfl
@[simp] theorem raiseError_crcCalc (e : ErrCode) (s : State) : (raiseError e s).crcCalc = s.crcCalc := rfl
@[simp] theorem raiseError_status (e : ErrCode) (s : State) : (raiseError e s).status = { err := errField e, valid := false, ovf := false } := rfl
@[simp] theorem raiseError_errlog (e : ErrCode) (s : State) : (raiseError e s).errlog = s.errlog ||| errBit e := rfl
@[simp] theorem raiseError_result (e : ErrCode) (s : State) : (raiseError e s).result = 0 := rfl
@[simp] theorem raiseError_raw (e : ErrCode) (s : State) : (raiseError e s).raw = 0x0000 := rfl
@[simp] theorem raiseError_addrOut (e : ErrCode) (s : State) : (raiseError e s).addrOut = s.addrOut := rfl
@[simp] theorem raiseError_cmd (e : ErrCode) (s : State) : (raiseError e s).cmd = s.cmd := rfl
@[simp] theorem raiseError_cmdArg (e : ErrCode) (s : State) : (raiseError e s).cmdArg = s.cmdArg := rfl
@[simp] theorem raiseError_opa (e : ErrCode) (s : State) : (raiseError e s).opa = s.opa := rfl
@[simp] theorem raiseError_opmask (e : ErrCode) (s : State) : (raiseError e s).opmask = s.opmask := rfl
@[simp] theorem raiseError_opinv (e : ErrCode) (s : State) : (raiseError e s).opinv = s.opinv := rfl
@[simp] theorem raiseError_opctrl (e : ErrCode) (s : State) : (raiseError e s).opctrl = s.opctrl := rfl
@[simp] theorem raiseError_opoff (e : ErrCode) (s : State) : (raiseError e s).opoff = s.opoff := rfl
@[simp] theorem raiseError_opmul (e : ErrCode) (s : State) : (raiseError e s).opmul = s.opmul := rfl
@[simp] theorem raiseError_pending (e : ErrCode) (s : State) : (raiseError e s).pending = s.pending := rfl
@[simp] theorem raiseError_response (e : ErrCode) (s : State) : (raiseError e s).response = s.response := rfl
@[simp] theorem raiseError_cfg (e : ErrCode) (s : State) : (raiseError e s).cfg = s.cfg := rfl

/-! `discardInstance` -/

@[simp] theorem discardInstance_payload (s : State) : (discardInstance s).payload = s.payload := rfl
@[simp] theorem discardInstance_plen (s : State) : (discardInstance s).plen = s.plen := rfl
@[simp] theorem discardInstance_devidLen (s : State) : (discardInstance s).devidLen = s.devidLen := rfl
@[simp] theorem discardInstance_passLen (s : State) : (discardInstance s).passLen = s.passLen := rfl
@[simp] theorem discardInstance_devid (s : State) : (discardInstance s).devid = s.devid := rfl
@[simp] theorem discardInstance_passwd (s : State) : (discardInstance s).passwd = s.passwd := rfl
@[simp] theorem discardInstance_key (s : State) : (discardInstance s).key = s.key := rfl
@[simp] theorem discardInstance_plain (s : State) : (discardInstance s).plain = s.plain := rfl
@[simp] theorem discardInstance_fmt (s : State) : (discardInstance s).fmt = 0x00 := rfl
@[simp] theorem discardInstance_inst (s : State) : (discardInstance s).inst = { constructed := false, crypt := cryptNotEvaluated } := rfl
@[simp] theorem discardInstance_crcCalc (s : State) : (discardInstance s).crcCalc = s.crcCalc := rfl
@[simp] theorem discardInstance_status (s : State) : (discardInstance s).status = s.status := rfl
@[simp] theorem discardInstance_errlog (s : State) : (discardInstance s).errlog = s.errlog := rfl
@[simp] theorem discardInstance_result (s : State) : (discardInstance s).result = s.result := rfl
@[simp] theorem discardInstance_raw (s : State) : (discardInstance s).raw = s.raw := rfl
@[simp] theorem discardInstance_addrOut (s : State) : (discardInstance s).addrOut = s.addrOut := rfl
@[simp] theorem discardInstance_cmd (s : State) : (discardInstance s).cmd = s.cmd := rfl
@[simp] theorem discardInstance_cmdArg (s : State) : (discardInstance s).cmdArg = s.cmdArg := rfl
@[simp] theorem discardInstance_opa (s : State) : (discardInstance s).opa = s.opa := rfl
@[simp] theorem discardInstance_opmask (s : State) : (discardInstance s).opmask = s.opmask := rfl
@[simp] theorem discardInstance_opinv (s : State) : (discardInstance s).opinv = s.opinv := rfl
@[simp] theorem discardInstance_opctrl (s : State) : (discardInstance s).opctrl = s.opctrl := rfl
@[simp] theorem discardInstance_opoff (s : State) : (discardInstance s).opoff = s.opoff := rfl
@[simp] theorem discardInstance_opmul (s : State) : (discardInstance s).opmul = s.opmul := rfl
@[simp] theorem discardInstance_pending (s : State) : (discardInstance s).pending = s.pending := rfl
@[simp] theorem discardInstance_response (s : State) : (discardInstance s).response = s.response := rfl
@[simp] theorem discardInstance_cfg (s : State) : (discardInstance s).cfg = s.cfg := rfl

/-! `openInstance` -/

@[simp] theorem openInstance_payload (tag : Byte) (s : State) : (openInstance tag s).payload = s.payload := rfl
@[simp] theorem openInstance_plen (tag : Byte) (s : State) : (openInstance tag s).plen = s.plen := rfl
@[simp] theorem openInstance_devidLen (tag : Byte) (s : State) : (openInstance tag s).devidLen = s.devidLen := rfl
@[simp] theorem openInstance_passLen (tag : Byte) (s : State) : (openInstance tag s).passLen = s.passLen := rfl
@[simp] theorem openInstance_devid (tag : Byte) (s : State) : (openInstance tag s).devid = s.devid := rfl
@[simp] theorem openInstance_passwd (tag : Byte) (s : State) : (openInstance tag s).passwd = s.passwd := rfl
@[simp] theorem openInstance_key (tag : Byte) (s : State) : (openInstance tag s).key = s.key := rfl
@[simp] theorem openInstance_plain (tag : Byte) (s : State) : (openInstance tag s).plain = s.plain := rfl
@[simp] theorem openInstance_fmt (tag : Byte) (s : State) : (openInstance tag s).fmt = tag := rfl
@[simp] theorem openInstance_inst (tag : Byte) (s : State) : (openInstance tag s).inst = { s.inst with constructed := true } := rfl
@[simp] theorem openInstance_crcCalc (tag : Byte) (s : State) : (openInstance tag s).crcCalc = s.crcCalc := rfl
@[simp] theorem openInstance_status (tag : Byte) (s : State) : (openInstance tag s).status = s.status := rfl
@[simp] theorem openInstance_errlog (tag : Byte) (s : State) : (openInstance tag s).errlog = s.errlog := rfl
@[simp] theorem openInstance_result (tag : Byte) (s : State) : (openInstance tag s).result = s.result := rfl
@[simp] theorem openInstance_raw (tag : Byte) (s : State) : (openInstance tag s).raw = s.raw := rfl
@[simp] theorem openInstance_addrOut (tag : Byte) (s : State) : (openInstance tag s).addrOut = s.addrOut := rfl
@[simp] theorem openInstance_cmd (tag : Byte) (s : State) : (openInstance tag s).cmd = s.cmd := rfl
@[simp] theorem openInstance_cmdArg (tag : Byte) (s : State) : (openInstance tag s).cmdArg = s.cmdArg := rfl
@[simp] theorem openInstance_opa (tag : Byte) (s : State) : (openInstance tag s).opa = s.opa := rfl
@[simp] theorem openInstance_opmask (tag : Byte) (s : State) : (openInstance tag s).opmask = s.opmask := rfl
@[simp] theorem openInstance_opinv (tag : Byte) (s : State) : (openInstance tag s).opinv = s.opinv := rfl
@[simp] theorem openInstance_opctrl (tag : Byte) (s : State) : (openInstance tag s).opctrl = s.opctrl := rfl
@[simp] theorem openInstance_opoff (tag : Byte) (s : State) : (openInstance tag s).opoff = s.opoff := rfl
@[simp] theorem openInstance_opmul (tag : Byte) (s : State) : (openInstance tag s).opmul = s.opmul := rfl
@[simp] theorem openInstance_pending (tag : Byte) (s : State) : (openInstance tag s).pending = s.pending := rfl
@[simp] theorem openInstance_response (tag : Byte) (s : State) : (openInstance tag s).response = s.response := rfl
@[simp] theorem openInstance_cfg (tag : Byte) (s : State) : (openInstance tag s).cfg = s.cfg := rfl

/-! `setAddrOut` -/

@[simp] theorem setAddrOut_payload (a : Vector Byte 6) (s : State) : (setAddrOut a s).payload = s.payload := rfl
@[simp] theorem setAddrOut_plen (a : Vector Byte 6) (s : State) : (setAddrOut a s).plen = s.plen := rfl
@[simp] theorem setAddrOut_devidLen (a : Vector Byte 6) (s : State) : (setAddrOut a s).devidLen = s.devidLen := rfl
@[simp] theorem setAddrOut_passLen (a : Vector Byte 6) (s : State) : (setAddrOut a s).passLen = s.passLen := rfl
@[simp] theorem setAddrOut_devid (a : Vector Byte 6) (s : State) : (setAddrOut a s).devid = s.devid := rfl
@[simp] theorem setAddrOut_passwd (a : Vector Byte 6) (s : State) : (setAddrOut a s).passwd = s.passwd := rfl
@[simp] theorem setAddrOut_key (a : Vector Byte 6) (s : State) : (setAddrOut a s).key = s.key := rfl
@[simp] theorem setAddrOut_plain (a : Vector Byte 6) (s : State) : (setAddrOut a s).plain = s.plain := rfl
@[simp] theorem setAddrOut_fmt (a : Vector Byte 6) (s : State) : (setAddrOut a s).fmt = s.fmt := rfl
@[simp] theorem setAddrOut_inst (a : Vector Byte 6) (s : State) : (setAddrOut a s).inst = s.inst := rfl
@[simp] theorem setAddrOut_crcCalc (a : Vector Byte 6) (s : State) : (setAddrOut a s).crcCalc = s.crcCalc := rfl
@[simp] theorem setAddrOut_status (a : Vector Byte 6) (s : State) : (setAddrOut a s).status = s.status := rfl
@[simp] theorem setAddrOut_errlog (a : Vector Byte 6) (s : State) : (setAddrOut a s).errlog = s.errlog := rfl
@[simp] theorem setAddrOut_result (a : Vector Byte 6) (s : State) : (setAddrOut a s).result = s.result := rfl
@[simp] theorem setAddrOut_raw (a : Vector Byte 6) (s : State) : (setAddrOut a s).raw = s.raw := rfl
@[simp] theorem setAddrOut_addrOut (a : Vector Byte 6) (s : State) : (setAddrOut a s).addrOut = a := rfl
@[simp] theorem setAddrOut_cmd (a : Vector Byte 6) (s : State) : (setAddrOut a s).cmd = s.cmd := rfl
@[simp] theorem setAddrOut_cmdArg (a : Vector Byte 6) (s : State) : (setAddrOut a s).cmdArg = s.cmdArg := rfl
@[simp] theorem setAddrOut_opa (a : Vector Byte 6) (s : State) : (setAddrOut a s).opa = s.opa := rfl
@[simp] theorem setAddrOut_opmask (a : Vector Byte 6) (s : State) : (setAddrOut a s).opmask = s.opmask := rfl
@[simp] theorem setAddrOut_opinv (a : Vector Byte 6) (s : State) : (setAddrOut a s).opinv = s.opinv := rfl
@[simp] theorem setAddrOut_opctrl (a : Vector Byte 6) (s : State) : (setAddrOut a s).opctrl = s.opctrl := rfl
@[simp] theorem setAddrOut_opoff (a : Vector Byte 6) (s : State) : (setAddrOut a s).opoff = s.opoff := rfl
@[simp] theorem setAddrOut_opmul (a : Vector Byte 6) (s : State) : (setAddrOut a s).opmul = s.opmul := rfl
@[simp] theorem setAddrOut_pending (a : Vector Byte 6) (s : State) : (setAddrOut a s).pending = s.pending := rfl
@[simp] theorem setAddrOut_response (a : Vector Byte 6) (s : State) : (setAddrOut a s).response = s.response := rfl
@[simp] theorem setAddrOut_cfg (a : Vector Byte 6) (s : State) : (setAddrOut a s).cfg = s.cfg := rfl

/-! `stage1` -/

@[simp] theorem stage1_payload (s : State) : (stage1 s).payload = s.payload := by rw [stage1]
@[simp] theorem stage1_plen (s : State) : (stage1 s).plen = s.plen := by rw [stage1]
@[simp] theorem stage1_devidLen (s : State) : (stage1 s).devidLen = s.devidLen := by rw [stage1]
@[simp] theorem stage1_passLen (s : State) : (stage1 s).passLen = s.passLen := by rw [stage1]
@[simp] theorem stage1_devid (s : State) : (stage1 s).devid = s.devid := by rw [stage1]
@[simp] theorem stage1_passwd (s : State) : (stage1 s).passwd = s.passwd := by rw [stage1]
@[simp] theorem stage1_key (s : State) : (stage1 s).key = deriveKey s.passwd s.devid := by rw [stage1]
@[simp] theorem stage1_plain (s : State) : (stage1 s).plain = s.plain := by rw [stage1]
@[simp] theorem stage1_fmt (s : State) : (stage1 s).fmt = s.fmt := by rw [stage1]
@[simp] theorem stage1_inst (s : State) : (stage1 s).inst = s.inst := by rw [stage1]
@[simp] theorem stage1_crcCalc (s : State) : (stage1 s).crcCalc = s.crcCalc := by rw [stage1]
@[simp] theorem stage1_status (s : State) : (stage1 s).status = s.status := by rw [stage1]
@[simp] theorem stage1_errlog (s : State) : (stage1 s).errlog = s.errlog := by rw [stage1]
@[simp] theorem stage1_result (s : State) : (stage1 s).result = s.result := by rw [stage1]
@[simp] theorem stage1_raw (s : State) : (stage1 s).raw = s.raw := by rw [stage1]
@[simp] theorem stage1_addrOut (s : State) : (stage1 s).addrOut = s.addrOut := by rw [stage1]
@[simp] theorem stage1_cmd (s : State) : (stage1 s).cmd = s.cmd := by rw [stage1]
@[simp] theorem stage1_cmdArg (s : State) : (stage1 s).cmdArg = s.cmdArg := by rw [stage1]
@[simp] theorem stage1_opa (s : State) : (stage1 s).opa = s.opa := by rw [stage1]
@[simp] theorem stage1_opmask (s : State) : (stage1 s).opmask = s.opmask := by rw [stage1]
@[simp] theorem stage1_opinv (s : State) : (stage1 s).opinv = s.opinv := by rw [stage1]
@[simp] theorem stage1_opctrl (s : State) : (stage1 s).opctrl = s.opctrl := by rw [stage1]
@[simp] theorem stage1_opoff (s : State) : (stage1 s).opoff = s.opoff := by rw [stage1]
@[simp] theorem stage1_opmul (s : State) : (stage1 s).opmul = s.opmul := by rw [stage1]
@[simp] theorem stage1_pending (s : State) : (stage1 s).pending = s.pending := by rw [stage1]
@[simp] theorem stage1_response (s : State) : (stage1 s).response = s.response := by rw [stage1]
@[simp] theorem stage1_cfg (s : State) : (stage1 s).cfg = s.cfg := by rw [stage1]

/-! `stage2` -/

@[simp] theorem stage2_payload (s : State) : (stage2 s).payload = s.payload := by rw [stage2]
@[simp] theorem stage2_plen (s : State) : (stage2 s).plen = s.plen := by rw [stage2]
@[simp] theorem stage2_devidLen (s : State) : (stage2 s).devidLen = s.devidLen := by rw [stage2]
@[simp] theorem stage2_passLen (s : State) : (stage2 s).passLen = s.passLen := by rw [stage2]
@[simp] theorem stage2_devid (s : State) : (stage2 s).devid = s.devid := by rw [stage2]
@[simp] theorem stage2_passwd (s : State) : (stage2 s).passwd = s.passwd := by rw [stage2]
@[simp] theorem stage2_key (s : State) : (stage2 s).key = s.key := by rw [stage2]
@[simp] theorem stage2_plain (s : State) : (stage2 s).plain = decryptBlock s.cfg.cipher s.key (cipherBlock s.payload) := by rw [stage2]
@[simp] theorem stage2_fmt (s : State) : (stage2 s).fmt = s.fmt := by rw [stage2]
@[simp] theorem stage2_inst (s : State) : (stage2 s).inst = s.inst := by rw [stage2]
@[simp] theorem stage2_crcCalc (s : State) : (stage2 s).crcCalc = s.crcCalc := by rw [stage2]
@[simp] theorem stage2_status (s : State) : (stage2 s).status = s.status := by rw [stage2]
@[simp] theorem stage2_errlog (s : State) : (stage2 s).errlog = s.errlog := by rw [stage2]
@[simp] theorem stage2_result (s : State) : (stage2 s).result = s.result := by rw [stage2]
@[simp] theorem stage2_raw (s : State) : (stage2 s).raw = s.raw := by rw [stage2]
@[simp] theorem stage2_addrOut (s : State) : (stage2 s).addrOut = s.addrOut := by rw [stage2]
@[simp] theorem stage2_cmd (s : State) : (stage2 s).cmd = s.cmd := by rw [stage2]
@[simp] theorem stage2_cmdArg (s : State) : (stage2 s).cmdArg = s.cmdArg := by rw [stage2]
@[simp] theorem stage2_opa (s : State) : (stage2 s).opa = s.opa := by rw [stage2]
@[simp] theorem stage2_opmask (s : State) : (stage2 s).opmask = s.opmask := by rw [stage2]
@[simp] theorem stage2_opinv (s : State) : (stage2 s).opinv = s.opinv := by rw [stage2]
@[simp] theorem stage2_opctrl (s : State) : (stage2 s).opctrl = s.opctrl := by rw [stage2]
@[simp] theorem stage2_opoff (s : State) : (stage2 s).opoff = s.opoff := by rw [stage2]
@[simp] theorem stage2_opmul (s : State) : (stage2 s).opmul = s.opmul := by rw [stage2]
@[simp] theorem stage2_pending (s : State) : (stage2 s).pending = s.pending := by rw [stage2]
@[simp] theorem stage2_response (s : State) : (stage2 s).response = s.response := by rw [stage2]
@[simp] theorem stage2_cfg (s : State) : (stage2 s).cfg = s.cfg := by rw [stage2]

/-! `stage3` -/

@[simp] theorem stage3_payload (s : State) : (stage3 s).payload = s.payload := rfl
@[simp] theorem stage3_plen (s : State) : (stage3 s).plen = s.plen := rfl
@[simp] theorem stage3_devidLen (s : State) : (stage3 s).devidLen = s.devidLen := rfl
@[simp] theorem stage3_passLen (s : State) : (stage3 s).passLen = s.passLen := rfl
@[simp] theorem stage3_devid (s : State) : (stage3 s).devid = s.devid := rfl
@[simp] theorem stage3_passwd (s : State) : (stage3 s).passwd = s.passwd := rfl
@[simp] theorem stage3_key (s : State) : (stage3 s).key = s.key := rfl
@[simp] theorem stage3_plain (s : State) : (stage3 s).plain = s.plain := rfl
@[simp] theorem stage3_fmt (s : State) : (stage3 s).fmt = s.fmt := rfl
@[simp] theorem stage3_inst (s : State) : (stage3 s).inst =
    { s.inst with
      crypt := if crc8 s.cfg.crcTable s.plain.toList = s.payload[17] then cryptVerified else cryptFailed } := rfl
@[simp] theorem stage3_crcCalc (s : State) : (stage3 s).crcCalc = crc8 s.cfg.crcTable s.plain.toList := rfl
@[simp] theorem stage3_status (s : State) : (stage3 s).status = s.status := rfl
@[simp] theorem stage3_errlog (s : State) : (stage3 s).errlog = s.errlog := rfl
@[simp] theorem stage3_result (s : State) : (stage3 s).result = s.result := rfl
@[simp] theorem stage3_raw (s : State) : (stage3 s).raw = s.raw := rfl
@[simp] theorem stage3_addrOut (s : State) : (stage3 s).addrOut = s.addrOut := rfl
@[simp] theorem stage3_cmd (s : State) : (stage3 s).cmd = s.cmd := rfl
@[simp] theorem stage3_cmdArg (s : State) : (stage3 s).cmdArg = s.cmdArg := rfl
@[simp] theorem stage3_opa (s : State) : (stage3 s).opa = s.opa := rfl
@[simp] theorem stage3_opmask (s : State) : (stage3 s).opmask = s.opmask := rfl
@[simp] theorem stage3_opinv (s : State) : (stage3 s).opinv = s.opinv := rfl
@[simp] theorem stage3_opctrl (s : State) : (stage3 s).opctrl = s.opctrl := rfl
@[simp] theorem stage3_opoff (s : State) : (stage3 s).opoff = s.opoff := rfl
@[simp] theorem stage3_opmul (s : State) : (stage3 s).opmul = s.opmul := rfl
@[simp] theorem stage3_pending (s : State) : (stage3 s).pending = s.pending := rfl
@[simp] theorem stage3_response (s : State) : (stage3 s).response = s.response := rfl
@[simp] theorem stage3_cfg (s : State) : (stage3 s).cfg = s.cfg := rfl

/-! `clearCore` -/

@[simp] theorem clearCore_payload (s : State) : (clearCore s).payload = s.payload := rfl
@[simp] theorem clearCore_plen (s : State) : (clearCore s).plen = s.plen := rfl
@[simp] theorem clearCore_devidLen (s : State) : (clearCore s).devidLen = s.devidLen := rfl
@[simp] theorem clearCore_passLen (s : State) : (clearCore s).passLen = s.passLen := rfl
@[simp] theorem clearCore_devid (s : State) : (clearCore s).devid = s.devid := rfl
@[simp] theorem clearCore_passwd (s : State) : (clearCore s).passwd = s.passwd := rfl
@[simp] theorem clearCore_key (s : State) : (clearCore s).key = Vector.replicate 16 0x00 := rfl
@[simp] theorem clearCore_plain (s : State) : (clearCore s).plain = Vector.replicate 16 0x00 := rfl
@[simp] theorem clearCore_fmt (s : State) : (clearCore s).fmt = 0x00 := rfl
@[simp] theorem clearCore_inst (s : State) : (clearCore s).inst = { constructed := false, crypt := cryptNotEvaluated } := rfl
@[simp] theorem clearCore_crcCalc (s : State) : (clearCore s).crcCalc = 0x00 := rfl
@[simp] theorem clearCore_status (s : State) : (clearCore s).status = s.status := rfl
@[simp] theorem clearCore_errlog (s : State) : (clearCore s).errlog = 0x00 := rfl
@[simp] theorem clearCore_result (s : State) : (clearCore s).result = s.result := rfl
@[simp] theorem clearCore_raw (s : State) : (clearCore s).raw = s.raw := rfl
@[simp] theorem clearCore_addrOut (s : State) : (clearCore s).addrOut = zeroAddress := rfl
@[simp] theorem clearCore_cmd (s : State) : (clearCore s).cmd = s.cmd := rfl
@[simp] theorem clearCore_cmdArg (s : State) : (clearCore s).cmdArg = s.cmdArg := rfl
@[simp] theorem clearCore_opa (s : State) : (clearCore s).opa = s.opa := rfl
@[simp] theorem clearCore_opmask (s : State) : (clearCore s).opmask = s.opmask := rfl
@[simp] theorem clearCore_opinv (s : State) : (clearCore s).opinv = s.opinv := rfl
@[simp] theorem clearCore_opctrl (s : State) : (clearCore s).opctrl = s.opctrl := rfl
@[simp] theorem clearCore_opoff (s : State) : (clearCore s).opoff = s.opoff := rfl
@[simp] theorem clearCore_opmul (s : State) : (clearCore s).opmul = s.opmul := rfl
@[simp] theorem clearCore_pending (s : State) : (clearCore s).pending = s.pending := rfl
@[simp] theorem clearCore_response (s : State) : (clearCore s).response = s.response := rfl
@[simp] theorem clearCore_cfg (s : State) : (clearCore s).cfg = s.cfg := rfl

/-! `resetRegisters` -/

@[simp] theorem resetRegisters_payload (s : State) : (resetRegisters s).payload = State.reset.payload := rfl
@[simp] theorem resetRegisters_plen (s : State) : (resetRegisters s).plen = State.reset.plen := rfl
@[simp] theorem resetRegisters_devidLen (s : State) : (resetRegisters s).devidLen = State.reset.devidLen := rfl
@[simp] theorem resetRegisters_passLen (s : State) : (resetRegisters s).passLen = State.reset.passLen := rfl
@[simp] theorem resetRegisters_devid (s : State) : (resetRegisters s).devid = State.reset.devid := rfl
@[simp] theorem resetRegisters_passwd (s : State) : (resetRegisters s).passwd = State.reset.passwd := rfl
@[simp] theorem resetRegisters_key (s : State) : (resetRegisters s).key = State.reset.key := rfl
@[simp] theorem resetRegisters_plain (s : State) : (resetRegisters s).plain = State.reset.plain := rfl
@[simp] theorem resetRegisters_fmt (s : State) : (resetRegisters s).fmt = State.reset.fmt := rfl
@[simp] theorem resetRegisters_inst (s : State) : (resetRegisters s).inst = State.reset.inst := rfl
@[simp] theorem resetRegisters_crcCalc (s : State) : (resetRegisters s).crcCalc = State.reset.crcCalc := rfl
@[simp] theorem resetRegisters_status (s : State) : (resetRegisters s).status = State.reset.status := rfl
@[simp] theorem resetRegisters_errlog (s : State) : (resetRegisters s).errlog = State.reset.errlog := rfl
@[simp] theorem resetRegisters_result (s : State) : (resetRegisters s).result = State.reset.result := rfl
@[simp] theorem resetRegisters_raw (s : State) : (resetRegisters s).raw = State.reset.raw := rfl
@[simp] theorem resetRegisters_addrOut (s : State) : (resetRegisters s).addrOut = State.reset.addrOut := rfl
@[simp] theorem resetRegisters_cmd (s : State) : (resetRegisters s).cmd = State.reset.cmd := rfl
@[simp] theorem resetRegisters_cmdArg (s : State) : (resetRegisters s).cmdArg = State.reset.cmdArg := rfl
@[simp] theorem resetRegisters_opa (s : State) : (resetRegisters s).opa = State.reset.opa := rfl
@[simp] theorem resetRegisters_opmask (s : State) : (resetRegisters s).opmask = State.reset.opmask := rfl
@[simp] theorem resetRegisters_opinv (s : State) : (resetRegisters s).opinv = State.reset.opinv := rfl
@[simp] theorem resetRegisters_opctrl (s : State) : (resetRegisters s).opctrl = State.reset.opctrl := rfl
@[simp] theorem resetRegisters_opoff (s : State) : (resetRegisters s).opoff = State.reset.opoff := rfl
@[simp] theorem resetRegisters_opmul (s : State) : (resetRegisters s).opmul = State.reset.opmul := rfl
@[simp] theorem resetRegisters_pending (s : State) : (resetRegisters s).pending = s.pending := rfl
@[simp] theorem resetRegisters_response (s : State) : (resetRegisters s).response = State.reset.response := rfl
@[simp] theorem resetRegisters_cfg (s : State) : (resetRegisters s).cfg = s.cfg := rfl

end Sys2Proof.Machine
end

