-- ==== Sys2Proof/Laws/Word.lean ====
section
/-! SUPPORT. Words and bytes as numbers: concatenation, the bytes of a word, the fields of a command word, and what the decoder's
three argument checks accept. -/

namespace Sys2Proof

/-- The value of a big-endian pair of bytes. -/
theorem half_append_toNat (a b : Byte) : BitVec.toNat (w := 16) (a ++ b) = a.toNat * 256 + b.toNat := by
  change BitVec.toNat (w := 8 + 8) (a ++ b) = _
  rw [BitVec.toNat_append, Nat.shiftLeft_eq, Nat.mul_comm, ← Nat.two_pow_add_eq_or_of_lt b.isLt]

/-- The high byte of a 16-bit word. -/
theorem half_high_toNat (w : Half) : (w.extractLsb' 8 8).toNat = w.toNat / 256 := by
  have := w.isLt
  simp only [BitVec.extractLsb'_toNat, Nat.shiftRight_eq_div_pow]
  omega

/-- The low byte of a 16-bit word. -/
theorem half_low_toNat (w : Half) : (w.extractLsb' 0 8).toNat = w.toNat % 256 := by
  simp [BitVec.extractLsb'_toNat]

/-- A word is its OP and ARG (R80). -/
theorem commandWord_of_fields (w : Half) : commandWord (wordOp w) (wordArg w) = w := by
  apply BitVec.eq_of_toNat_eq
  unfold commandWord wordOp wordArg
  rw [half_append_toNat, half_high_toNat, half_low_toNat]
  omega

@[simp] theorem wordOp_commandWord (op arg : Byte) : wordOp (commandWord op arg) = op := by
  apply BitVec.eq_of_toNat_eq
  unfold commandWord wordOp
  rw [half_high_toNat, half_append_toNat]
  have := arg.isLt
  omega

@[simp] theorem wordArg_commandWord (op arg : Byte) : wordArg (commandWord op arg) = arg := by
  apply BitVec.eq_of_toNat_eq
  unfold commandWord wordArg
  rw [half_low_toNat, half_append_toNat]
  have := arg.isLt
  omega

@[simp] theorem decode_commandWord (op arg : Byte) : decode (commandWord op arg) = decodeFields op arg := by
  rw [decode, wordOp_commandWord, wordArg_commandWord]

/-- An argument-less opcode decodes exactly with ARG = 0 (R84). -/
theorem decodeArgumentless_ok {op arg : Byte} {i j : Instr} :
    decodeArgumentless op arg i = .ok j ↔ arg = 0x00 ∧ j = i := by
  unfold decodeArgumentless
  by_cases h : arg = 0x00
  · simp only [h, if_true, true_and, Except.ok.injEq, eq_comm]
  · simp only [h, if_false, false_and, iff_false]
    exact nofun

/-- A byte known by its value. -/
theorem byte_of_toNat {b : Byte} {n : Nat} (h : b.toNat = n) : b = BitVec.ofNat 8 n := by
  rw [← h]
  simp

namespace Machine

/-- Bit k of the byte mask 0xFF of any width. -/
theorem byteMask_getLsbD (w k : Nat) : (0xFF#w).getLsbD k = (decide (k < w) && decide (k < 8)) := by
  rw [BitVec.getLsbD_ofNat]
  congr 1
  exact Nat.testBit_two_pow_sub_one 8 k

/-- Reading a byte of a register after a byte was stored in it: the byte itself, or an untouched one. -/
theorem byteOf_withByte {w : Nat} (v : BitVec w) (lo lo' : Nat) (b : Byte) (h : lo + 8 ≤ w) (h' : lo' + 8 ≤ w)
    (apart : lo = lo' ∨ lo + 8 ≤ lo' ∨ lo' + 8 ≤ lo) :
    byteOf (withByte v lo b) lo' = if lo = lo' then b else byteOf v lo' := by
  apply BitVec.eq_of_getLsbD_eq
  intro k hk
  have hkw : lo' + k < w := by omega
  have hkw' : lo' + k - lo < w := by omega
  simp only [byteOf, withByte, BitVec.getLsbD_extractLsb', hk, decide_true, Bool.true_and, BitVec.getLsbD_or,
    BitVec.getLsbD_and, BitVec.getLsbD_not, BitVec.getLsbD_shiftLeft, byteMask_getLsbD, BitVec.getLsbD_setWidth,
    hkw, hkw']
  by_cases he : lo = lo'
  · subst he
    have h1 : ¬lo + k < lo := by omega
    have h2 : lo + k - lo = k := by omega
    simp [h1, h2, hk]
  · rcases apart with h0 | h0 | h0
    · exact absurd h0 he
    · have h1 : ¬lo' + k < lo := by omega
      have h2 : ¬lo' + k - lo < 8 := by omega
      simp [he, h1, h2, hk, BitVec.getLsbD_of_ge b _ (by omega : 8 ≤ lo' + k - lo)]
    · have h1 : lo' + k < lo := by omega
      simp [he, h1, hk]

end Machine

end Sys2Proof
end

