-- ==== Sys2Proof/Laws/AddressMap.lean ====
section
/-! SUPPORT. Reading after writing in the register space: the byte stored, every other byte untouched, and which addresses are
which registers. -/

namespace Sys2Proof.Machine

/-- OPCTRL keeps bit 0 of what is written to it (R46). -/
theorem opCtrlByte_opCtrlOfByte (v : Byte) : opCtrlByte (opCtrlOfByte v) = v &&& 0x01 := by
  revert v
  decide

/-- A byte stored where the host may write it reads back, of OPCTRL its bit 0 (R46, R51). -/
theorem peek_poke_self (s : State) (l : Loc) (v : Byte) (h : accessOf l = .readWrite) :
    peek (poke s l v) l = if l = .opctrl then v &&& 0x01 else v := by
  cases l <;> first
    | exact Access.noConfusion h
    | exact opCtrlByte_opCtrlOfByte v
    | (simp [poke, peek]; done)
    | (rename_i i; have := i.isLt; simp only [poke, peek]; rw [byteOf_withByte _ _ _ _ (by omega) (by omega) (.inl rfl)]; simp)

/-- Storing a byte at a location leaves every other location alone (R51). -/
theorem peek_poke_ne (s : State) {l l' : Loc} (v : Byte) (h : l' ≠ l) : peek (poke s l v) l' = peek s l' := by
  cases l <;> cases l' <;> first
    | rfl
    | exact absurd rfl h
    | (rename_i i j
       have hij : j.val ≠ i.val := fun e => h (congrArg _ (Fin.ext e))
       simp only [poke, peek]
       exact Vector.getElem_set_ne _ _ (Ne.symm hij))
    | (rename_i i j
       have hij : j.val ≠ i.val := fun e => h (congrArg _ (Fin.ext e))
       have := i.isLt
       have := j.isLt
       simp only [poke, peek]
       rw [byteOf_withByte _ _ _ _ (by omega) (by omega) (by omega), if_neg (by omega)])

/-- CMD stands at one address (R51). -/
theorem locOf_eq_cmd (a : Byte) : locOf a = .cmd ↔ a = 0x50 := by
  revert a
  decide

/-- No two addresses hold the same register byte (R51). -/
theorem locOf_injective {a b : Byte} (h : locOf a = locOf b) (hr : locOf a ≠ .reserved) : a = b := by
  have key : ∀ a : Byte, locOf a ≠ .reserved →
      ∀ b : Byte, locOf a = locOf b → a = b := by decide +kernel
  exact key a hr b h

/-- Discarding the instance changes FMT and INST only (R58). -/
theorem peek_discardInstance (s : State) {l : Loc} (hf : l ≠ .fmt) (hi : l ≠ .inst) :
    peek (discardInstance s) l = peek s l := by
  cases l <;> first | rfl | contradiction

/-- What a host write does, by the access of the register (R57 to R59). -/
theorem busWrite_cases (s : State) (addr v : Byte) :
    (accessOf (locOf addr) = .readWrite ∧ isInput (locOf addr) = true ∧
      busWrite s addr v = discardInstance (poke s (locOf addr) v)) ∨
    (accessOf (locOf addr) = .readWrite ∧ isInput (locOf addr) = false ∧ busWrite s addr v = poke s (locOf addr) v) ∨
    (accessOf (locOf addr) ≠ .readWrite ∧ busWrite s addr v = s) := by
  unfold busWrite
  cases accessOf (locOf addr) <;> cases isInput (locOf addr) <;> simp

end Sys2Proof.Machine
end

