-- ==== Sys2Proof/Laws/Cipher.lean ====
section
/-! SUPPORT. The parameter AES128_DEC (spec/00_scope.md R4, spec/44_v8_crypto.md R181) as a list of answers: what one
application gives, and that every block function is some list (log entry 4). -/

namespace Sys2Proof.Machine

@[simp] theorem decryptBlock_nil (key block : Block) : decryptBlock [] key block = aes128Dec key block := rfl

theorem decryptBlock_cons_of_eq {a : CipherAnswer} {key block : Block} (answers : List CipherAnswer)
    (hk : a.key = key) (hb : a.block = block) : decryptBlock (a :: answers) key block = a.plain :=
  if_pos ⟨hk, hb⟩

theorem decryptBlock_cons_of_ne {a : CipherAnswer} {key block : Block} (answers : List CipherAnswer)
    (h : ¬(a.key = key ∧ a.block = block)) : decryptBlock (a :: answers) key block = decryptBlock answers key block :=
  if_neg h

/-- What an application can give: a listed answer for its key and block, or the default where none is listed. -/
theorem decryptBlock_cases (answers : List CipherAnswer) (key block : Block) :
    (∃ a ∈ answers, a.key = key ∧ a.block = block ∧ decryptBlock answers key block = a.plain) ∨
    ((∀ a ∈ answers, ¬(a.key = key ∧ a.block = block)) ∧ decryptBlock answers key block = aes128Dec key block) := by
  induction answers with
  | nil => exact .inr ⟨by simp, rfl⟩
  | cons a rest ih =>
    by_cases h : a.key = key ∧ a.block = block
    · exact .inl ⟨a, by simp, h.1, h.2, decryptBlock_cons_of_eq rest h.1 h.2⟩
    · rw [decryptBlock_cons_of_ne rest h]
      rcases ih with ⟨b, hb, hk, hbl, e⟩ | ⟨hn, e⟩
      · exact .inl ⟨b, by simp [hb], hk, hbl, e⟩
      · exact .inr ⟨List.forall_mem_cons.mpr ⟨h, hn⟩, e⟩

theorem finite_block : Finite Block := by
  have : Finite Byte := Finite.of_injective BitVec.toFin fun _ _ h => BitVec.toFin_inj.mp h
  refine Finite.of_injective (fun (v : Block) (i : Fin 16) => v[i]) fun v w h => ?_
  ext1 i hi
  exact congrFun h ⟨i, hi⟩

/-- Every function of a key and a block is the parameter at some list of answers. -/
theorem exists_decryptBlock_eq (f : Block → Block → Block) :
    ∃ answers, ∀ key block, decryptBlock answers key block = f key block := by
  have := finite_block
  obtain ⟨n, ⟨e⟩⟩ := Finite.exists_equiv_fin (Block × Block)
  refine ⟨(List.finRange n).map fun i => ⟨(e.symm i).1, (e.symm i).2, f (e.symm i).1 (e.symm i).2⟩, fun key block => ?_⟩
  rcases decryptBlock_cases _ key block with ⟨a, ha, rfl, rfl, h⟩ | ⟨hn, -⟩
  · obtain ⟨i, -, rfl⟩ := List.mem_map.mp ha
    exact h
  · refine absurd ?_ (hn _ (List.mem_map.mpr ⟨e (key, block), List.mem_finRange _, rfl⟩))
    simp

end Sys2Proof.Machine
end

