-- ==== Sys2Proof/Laws/Ops.lean ====
section
/-! SUPPORT. What each shared operation can do, said once: the completions, the decode function, the V8 gate, construction,
the READ dispatch, and the step. -/

namespace Sys2Proof.Machine

/-! The two completions (R226, R227) -/

theorem finish_eq (r : Reading) (value : Int) (s : State) (h : r.result = wrap32 value) :
    finish r s = afterReading r.valid value r.raw r.ovf s := by
  simp only [finish, afterReading, h, wrap32]

theorem finish_noReading (s : State) : finish noReading s = afterReading false 0 0 false s := rfl

theorem finish_absentReading (pat : Half) (s : State) :
    finish (absentReading pat) s = afterReading false 0 pat false s := rfl

theorem finish_convert (value : Int) (pat : Half) (off mul : Int) (s : State) :
    finish (convert value pat off mul) s =
      afterReading true ((value + off) * mul) pat (overflows ((value + off) * mul)) s := rfl

theorem raiseError_eq (e : ErrCode) (s : State) : raiseError e s = afterError (errNumber e) s := rfl

/-- A completion forgets the one before it (R226). -/
@[simp] theorem finish_finish (r q : Reading) (s : State) : finish r (finish q s) = finish r s := rfl

/-- A normal completion after an error completion leaves the sticky bit only (R226, R227). -/
theorem finish_raiseError (r : Reading) (e : ErrCode) (s : State) :
    finish r (raiseError e s) = finish r { s with errlog := s.errlog ||| errBit e } := rfl

/-- Setting a sticky bit twice is setting it once (R36). -/
@[simp] theorem raiseError_raiseError (e : ErrCode) (s : State) : raiseError e (raiseError e s) = raiseError e s := by
  have : ∀ x : Byte, x ||| errBit e ||| errBit e = x ||| errBit e := fun x => by
    rw [BitVec.or_assoc, BitVec.or_self]
  simp only [raiseError, this]

theorem errNumber_range (e : ErrCode) : 1 ≤ errNumber e ∧ errNumber e ≤ 8 := by cases e <;> decide

theorem errField_toNat (e : ErrCode) : (errField e).toNat = errNumber e := by cases e <;> rfl

@[simp] theorem errField_ne_zero (e : ErrCode) : errField e ≠ 0#4 := by cases e <;> decide

/-- An error code is its number (R225). -/
theorem errField_injective {e e' : ErrCode} (h : errField e = errField e') : e = e' := by
  cases e <;> cases e' <;> first | rfl | exact absurd h (by decide)

/-- The bit an error completion sets is the one of its code (R36). -/
theorem errBit_getLsbD (e : ErrCode) (x : Byte) : (x ||| errBit e).getLsbD ((errField e).toNat - 1) = true := by
  cases e <;> simp [errBit, errNumber, errField]

/-! Decode (R100 to R102) -/

theorem isSentinel_iff (inv : Option Half) (pat : Half) : isSentinel inv pat = true ↔ inv = some pat := by
  cases inv with
  | none => simp [isSentinel]
  | some p => exact beq_iff_eq.trans ⟨fun h => congrArg some h.symm, fun h => (Option.some.inj h).symm⟩

theorem decodeField_absent {p mask : Half} {inv : Option Half} (sgn : Sign) (off mul : Int)
    (h : inv = some (p &&& mask)) : decodeField p sgn mask inv off mul = absentReading (p &&& mask) :=
  if_pos ((isSentinel_iff _ _).mpr h)

theorem decodeField_present {p mask : Half} {inv : Option Half} (sgn : Sign) (off mul : Int)
    (h : inv ≠ some (p &&& mask)) :
    decodeField p sgn mask inv off mul = convert (signedValue sgn (p &&& mask)) (p &&& mask) off mul :=
  if_neg (mt (isSentinel_iff _ _).mp h)

/-- The sentinel operand of a primitive command (R87). -/
theorem sentinel_eq_some (s : State) (p : Half) :
    s.sentinel = some p ↔ s.opctrl.invEn = true ∧ s.opinv = p := by
  unfold State.sentinel
  split <;> simp_all

/-- A reading that is absent has result 0 and no overflow (R35, R38, R100). -/
def Reading.AbsentIsZero (r : Reading) : Prop := r.valid = false → r.result = 0 ∧ r.ovf = false

theorem noReading_absentIsZero : noReading.AbsentIsZero := fun _ => ⟨rfl, rfl⟩

theorem decodeField_absentIsZero (p : Half) (sgn : Sign) (mask : Half) (inv : Option Half) (off mul : Int) :
    (decodeField p sgn mask inv off mul).AbsentIsZero := by
  by_cases h : inv = some (p &&& mask)
  · rw [decodeField_absent _ _ _ h]; exact fun _ => ⟨rfl, rfl⟩
  · rw [decodeField_present _ _ _ h]; exact fun h => nomatch h

theorem v3Temperature_absentIsZero (b2 b3 : Byte) : (v3Temperature b2 b3).AbsentIsZero := by
  unfold v3Temperature
  dsimp only
  split
  · exact fun _ => ⟨rfl, rfl⟩
  · exact fun h => nomatch h

/-- What the operands decide of the overflow flag: no 16-bit pattern scaled by a small multiplier leaves the s32 range
(R103). -/
theorem overflows_eq_false {v : Int} (h : -2 ^ 31 ≤ v ∧ v ≤ 2 ^ 31 - 1) : overflows v = false := by
  unfold overflows
  exact decide_eq_false (by omega)

/-- A mask of ones keeps the pattern (R108). -/
@[simp] theorem half_and_ones (p : Half) : p &&& 0xFFFF#16 = p := BitVec.and_allOnes (w := 16)

/-- A field with a sentinel, completed: what `afterField` says, if the scaled value fits (R100, R108). -/
theorem finish_decodeField_sentinel {p mask pat inv : Half} {sgn : Sign} {off mul value : Int} (s : State)
    (hp : p &&& mask = pat) (hv : (signedValue sgn pat + off) * mul = value)
    (fits : pat ≠ inv → overflows value = false) :
    finish (decodeField p sgn mask (some inv) off mul) s = afterField pat inv value s := by
  subst hp
  unfold afterField
  by_cases h : p &&& mask = inv
  · rw [if_pos h, decodeField_absent _ _ _ (congrArg some h.symm), finish_absentReading]
  · rw [if_neg h, decodeField_present _ _ _ (fun e => h (Option.some.inj e).symm), finish_convert, hv, fits h]

/-- A field without a sentinel, completed: a reading, if the scaled value fits (R100, R108). -/
theorem finish_decodeField_none {p mask pat : Half} {sgn : Sign} {off mul value : Int} (s : State)
    (hp : p &&& mask = pat) (hv : (signedValue sgn pat + off) * mul = value) (fits : overflows value = false) :
    finish (decodeField p sgn mask none off mul) s = afterReading true value pat false s := by
  subst hp
  rw [decodeField_present _ _ _ (Option.some_ne_none _).symm, finish_convert, hv, fits]

/-! The instance (R120 to R127) -/

theorem matchesFormat_iff (f : Format) (s : State) :
    matchesFormat f s = true ↔ s.plen.toNat = formatLen f ∧ s.payload[0] = formatTag f := by
  unfold matchesFormat
  rw [decide_eq_true_iff]
  constructor
  · exact fun h => ⟨h.1, h.2.2⟩
  · exact fun h => ⟨h.1, by rw [h.1]; cases f <;> decide, h.2⟩

/-- A payload matches one format at most: the tags differ (R123). -/
theorem matchesFormat_unique {f g : Format} {s : State} (hf : matchesFormat f s = true)
    (hg : matchesFormat g s = true) : f = g := by
  rw [matchesFormat_iff] at hf hg
  have h := hf.2.symm.trans hg.2
  cases f <;> cases g <;> first | rfl | exact absurd h (by decide)

@[simp] theorem matchesFormat_discard (f : Format) (s : State) :
    matchesFormat f (discardInstance s) = matchesFormat f s := rfl

@[simp] theorem credentialLengthsOk_discard (s : State) :
    credentialLengthsOk (discardInstance s) = credentialLengthsOk s := rfl

/-- A construction after the old instance was discarded (R122). -/
theorem construct_discard (f : Format) (s : State) :
    construct f (discardInstance s) = finish noReading { s with inst := ⟨true, 0b00⟩, fmt := formatTag f } := rfl

/-- Everything SELECT can do (R122). -/
theorem selectFormat_cases (s : State) :
    (∃ f, f ≠ .v8 ∧ matchesFormat f s = true ∧ selectFormat s = construct f s) ∨
    (matchesFormat .v8 s = true ∧ selectFormat s = raiseError .needsCredentials s) ∨
    ((∀ f, matchesFormat f s = false) ∧ selectFormat s = raiseError .noDecoder s) := by
  unfold selectFormat
  split
  case isTrue h => exact .inl ⟨.v3, by decide, h, rfl⟩
  case isFalse h3 =>
    split
    case isTrue h => exact .inl ⟨.v5, by decide, h, rfl⟩
    case isFalse h5 =>
      split
      case isTrue h => exact .inl ⟨.c5, by decide, h, rfl⟩
      case isFalse hc =>
        split
        case isTrue h => exact .inr (.inl ⟨h, rfl⟩)
        case isFalse h8 =>
          refine .inr (.inr ⟨fun f => ?_, rfl⟩)
          cases f <;> exact Bool.eq_false_iff.mpr ‹_›

/-- SELECT opens the instance of the format that matches, if it is not V8 (R122, R123). -/
theorem selectFormat_of_match {f : Format} {s : State} (h : matchesFormat f s = true) (h8 : f ≠ .v8) :
    selectFormat s = construct f s := by
  rcases selectFormat_cases s with ⟨g, -, hg, e⟩ | ⟨hg, -⟩ | ⟨hg, -⟩
  · rw [e, matchesFormat_unique h hg]
  · exact absurd (matchesFormat_unique h hg) h8
  · rw [hg f] at h; cases h

/-- Everything CONSTRUCT.V8 can do (R127). -/
theorem constructEncrypted_cases (s : State) :
    (matchesFormat .v8 s = true ∧ credentialLengthsOk s = true ∧ constructEncrypted s = construct .v8 s) ∨
    (matchesFormat .v8 s = false ∧ (s.cfg.checkOrder = .formatFirst ∨ credentialLengthsOk s = true) ∧
      constructEncrypted s = raiseError .formatMismatch s) ∨
    (credentialLengthsOk s = false ∧ (s.cfg.checkOrder = .credentialsFirst ∨ matchesFormat .v8 s = true) ∧
      constructEncrypted s = raiseError .badCredentials s) := by
  unfold constructEncrypted
  cases s.cfg.checkOrder <;> cases matchesFormat .v8 s <;> cases credentialLengthsOk s <;> simp

/-! The V8 stages and the gate (R180 to R194, R200) -/

/-- Stages 1 and 2 together (R180, R190). -/
theorem stage2_stage1_plain (s : State) :
    (stage2 (stage1 s)).plain = decryptBlock s.cfg.cipher (deriveKey s.passwd s.devid) (cipherBlock s.payload) := by
  rw [stage2_plain, stage1_key, stage1_payload, stage1_cfg]

/-- Once the stages ran, the gate does nothing (R193). -/
theorem ensurePlain_of_ne {s : State} (h : s.inst.crypt ≠ cryptNotEvaluated) : ensurePlain s = s := if_neg h

theorem ensurePlain_of_notEvaluated {s : State} (h : s.inst.crypt = cryptNotEvaluated) :
    ensurePlain s = stage3 (stage2 (stage1 s)) := if_pos h

/-- After the gate the stages have run (R193). -/
theorem ensurePlain_crypt_ne (s : State) : (ensurePlain s).inst.crypt ≠ cryptNotEvaluated := by
  unfold ensurePlain
  split
  case isTrue h => rw [stage3_inst]; dsimp only; split <;> decide
  case isFalse h => exact h

@[simp] theorem ensurePlain_constructed (s : State) : (ensurePlain s).inst.constructed = s.inst.constructed := by
  unfold ensurePlain; split <;> simp

@[simp] theorem ensurePlain_payload (s : State) : (ensurePlain s).payload = s.payload := by
  unfold ensurePlain; split <;> simp
@[simp] theorem ensurePlain_plen (s : State) : (ensurePlain s).plen = s.plen := by
  unfold ensurePlain; split <;> simp
@[simp] theorem ensurePlain_devidLen (s : State) : (ensurePlain s).devidLen = s.devidLen := by
  unfold ensurePlain; split <;> simp
@[simp] theorem ensurePlain_passLen (s : State) : (ensurePlain s).passLen = s.passLen := by
  unfold ensurePlain; split <;> simp
@[simp] theorem ensurePlain_devid (s : State) : (ensurePlain s).devid = s.devid := by
  unfold ensurePlain; split <;> simp
@[simp] theorem ensurePlain_passwd (s : State) : (ensurePlain s).passwd = s.passwd := by
  unfold ensurePlain; split <;> simp
@[simp] theorem ensurePlain_fmt (s : State) : (ensurePlain s).fmt = s.fmt := by
  unfold ensurePlain; split <;> simp
@[simp] theorem ensurePlain_status (s : State) : (ensurePlain s).status = s.status := by
  unfold ensurePlain; split <;> simp
@[simp] theorem ensurePlain_errlog (s : State) : (ensurePlain s).errlog = s.errlog := by
  unfold ensurePlain; split <;> simp
@[simp] theorem ensurePlain_result (s : State) : (ensurePlain s).result = s.result := by
  unfold ensurePlain; split <;> simp
@[simp] theorem ensurePlain_raw (s : State) : (ensurePlain s).raw = s.raw := by
  unfold ensurePlain; split <;> simp
@[simp] theorem ensurePlain_addrOut (s : State) : (ensurePlain s).addrOut = s.addrOut := by
  unfold ensurePlain; split <;> simp
@[simp] theorem ensurePlain_cmd (s : State) : (ensurePlain s).cmd = s.cmd := by
  unfold ensurePlain; split <;> simp
@[simp] theorem ensurePlain_cmdArg (s : State) : (ensurePlain s).cmdArg = s.cmdArg := by
  unfold ensurePlain; split <;> simp
@[simp] theorem ensurePlain_opa (s : State) : (ensurePlain s).opa = s.opa := by
  unfold ensurePlain; split <;> simp
@[simp] theorem ensurePlain_opmask (s : State) : (ensurePlain s).opmask = s.opmask := by
  unfold ensurePlain; split <;> simp
@[simp] theorem ensurePlain_opinv (s : State) : (ensurePlain s).opinv = s.opinv := by
  unfold ensurePlain; split <;> simp
@[simp] theorem ensurePlain_opctrl (s : State) : (ensurePlain s).opctrl = s.opctrl := by
  unfold ensurePlain; split <;> simp
@[simp] theorem ensurePlain_opoff (s : State) : (ensurePlain s).opoff = s.opoff := by
  unfold ensurePlain; split <;> simp
@[simp] theorem ensurePlain_opmul (s : State) : (ensurePlain s).opmul = s.opmul := by
  unfold ensurePlain; split <;> simp
@[simp] theorem ensurePlain_pending (s : State) : (ensurePlain s).pending = s.pending := by
  unfold ensurePlain; split <;> simp
@[simp] theorem ensurePlain_response (s : State) : (ensurePlain s).response = s.response := by
  unfold ensurePlain; split <;> simp
@[simp] theorem ensurePlain_cfg (s : State) : (ensurePlain s).cfg = s.cfg := by
  unfold ensurePlain; split <;> simp

/-- A completion after the gate leaves the stages done (R193). -/
@[simp] theorem ensurePlain_finish_ensurePlain (r : Reading) (s : State) :
    ensurePlain (finish r (ensurePlain s)) = finish r (ensurePlain s) :=
  ensurePlain_of_ne (ensurePlain_crypt_ne s)

/-- An error completion after the gate leaves the stages done (R193). -/
@[simp] theorem ensurePlain_raiseError_ensurePlain (e : ErrCode) (s : State) :
    ensurePlain (raiseError e (ensurePlain s)) = raiseError e (ensurePlain s) :=
  ensurePlain_of_ne (ensurePlain_crypt_ne s)

/-- The verdict is INST.CRYPT (R193). -/
theorem isVerified_iff (s : State) : isVerified s = true ↔ s.inst.crypt = cryptVerified := by
  simp [isVerified]

/-- Everything the gate can do (R200). -/
theorem plainGate_cases (rule : State → State) (s : State) :
    ((ensurePlain s).inst.crypt = cryptVerified ∧ plainGate rule s = rule (ensurePlain s)) ∨
    ((ensurePlain s).inst.crypt ≠ cryptVerified ∧ plainGate rule s = raiseError .integrity (ensurePlain s)) := by
  unfold plainGate
  by_cases h : (ensurePlain s).inst.crypt = cryptVerified
  · exact .inl ⟨h, if_pos ((isVerified_iff _).mpr h)⟩
  · exact .inr ⟨h, if_neg (mt (isVerified_iff _).mp h)⟩

/-- Everything VERIFY can do (R194). -/
theorem verifyInstance_cases (s : State) :
    (s.inst.constructed = false ∧ verifyInstance s = raiseError .notConstructed s) ∨
    (s.inst.constructed = true ∧ s.fmt ≠ 0x08 ∧ verifyInstance s = raiseError .notInFormat s) ∨
    (hasInstance 0x08 s ∧ verifyInstance s = plainGate (finish noReading) s) := by
  unfold verifyInstance hasInstance
  cases h : s.inst.constructed
  · exact .inl ⟨rfl, rfl⟩
  · by_cases hf : s.fmt = formatTag .v8
    · exact .inr (.inr ⟨⟨rfl, hf⟩, if_neg (not_not_intro hf)⟩)
    · exact .inr (.inl ⟨rfl, hf, if_pos hf⟩)

/-! READ (R130, R131) -/

/-- The V8 rules: READ.ADDR's, and readings of PLAIN behind the gate (R201 to R209). -/
theorem layoutRule_v8 {field : Field} {rule : State → State} (h : layoutRule field .v8 = some rule) :
    (field = .addr ∧ rule = v8Addr) ∨
    (field ≠ .addr ∧ ∃ r : State → Reading, rule = plainGate (fun t => finish (r t) t) ∧
      (∀ s, (r s).AbsentIsZero) ∧ ∀ s t, s.plain = t.plain → r s = r t) := by
  cases field <;> cases h
  · exact .inr ⟨nofun, _, funext v8Temp.eq_1, fun _ => decodeField_absentIsZero _ _ _ _ _ _, fun _ _ h => by rw [h]⟩
  · exact .inr ⟨nofun, _, funext v8Humid.eq_1, fun _ => decodeField_absentIsZero _ _ _ _ _ _, fun _ _ h => by rw [h]⟩
  · exact .inr ⟨nofun, _, funext v8Press.eq_1, fun _ => decodeField_absentIsZero _ _ _ _ _ _, fun _ _ h => by rw [h]⟩
  · exact .inr ⟨nofun, _, funext v8Batt.eq_1, fun _ => decodeField_absentIsZero _ _ _ _ _ _, fun _ _ h => by
      simp only [v8PowerWord, h]⟩
  · exact .inr ⟨nofun, _, funext v8Txpwr.eq_1, fun _ => decodeField_absentIsZero _ _ _ _ _ _, fun _ _ h => by
      simp only [v8PowerWord, h]⟩
  · exact .inr ⟨nofun, _, funext v8Move.eq_1, fun _ => decodeField_absentIsZero _ _ _ _ _ _, fun _ _ h => by rw [h]⟩
  · exact .inr ⟨nofun, _, funext v8Seq.eq_1, fun _ => decodeField_absentIsZero _ _ _ _ _ _, fun _ _ h => by rw [h]⟩
  · exact .inl ⟨rfl, rfl⟩

/-- What a layout rule is made of: a reading of the payload, the address rule, or a reading of PLAIN behind the gate. -/
theorem layoutRule_cases {field : Field} {f : Format} {rule : State → State} (h : layoutRule field f = some rule) :
    (field ≠ .addr ∧ f ≠ .v8 ∧ ∃ r : State → Reading, rule = (fun s => finish (r s) s) ∧
      (∀ s, (r s).AbsentIsZero) ∧ ∀ s t, s.payload = t.payload → r s = r t) ∨
    (field = .addr ∧ f ≠ .v3 ∧ ∃ a : State → Vector Byte 6, rule = (fun s => readAddress (a s) s) ∧
      ∀ s t, s.payload = t.payload → a s = a t) ∨
    (field ≠ .addr ∧ f = .v8 ∧ ∃ r : State → Reading, rule = plainGate (fun t => finish (r t) t) ∧
      (∀ s, (r s).AbsentIsZero) ∧ ∀ s t, s.plain = t.plain → r s = r t) := by
  by_cases hf : f = .v8
  · subst hf
    rcases layoutRule_v8 h with ⟨hfield, rfl⟩ | ⟨hfield, hr⟩
    · exact .inr (.inl ⟨hfield, nofun, _, rfl, fun s t h => by rw [h]⟩)
    · exact .inr (.inr ⟨hfield, rfl, hr⟩)
  · cases f
    case v8 => exact absurd rfl hf
    all_goals
      cases field <;> cases h <;> first
        | exact .inl ⟨nofun, nofun, _, rfl, fun _ => decodeField_absentIsZero _ _ _ _ _ _, fun s t h => by rw [h]⟩
        | exact .inl ⟨nofun, nofun, _, rfl, fun _ => v3Temperature_absentIsZero _ _, fun s t h => by rw [h]⟩
        | exact .inr (.inl ⟨rfl, nofun, _, rfl, fun s t h => by rw [h]⟩)
        | exact .inl ⟨nofun, nofun, _, rfl, fun _ => decodeField_absentIsZero _ _ _ _ _ _, fun s t h => by
            simp only [v5PowerWord, c5PowerWord, h]⟩

theorem formatOfTag_eq_some {tag : Byte} {f : Format} : formatOfTag tag = some f ↔ tag = formatTag f := by
  unfold formatOfTag
  constructor
  · intro h
    split at h
    · cases h; assumption
    · split at h
      · cases h; assumption
      · split at h
        · cases h; assumption
        · split at h
          · cases h; assumption
          · cases h
  · rintro rfl
    cases f <;> rfl

/-- Everything a READ can do (R131). -/
theorem readField_cases (field : Field) (s : State) :
    (s.inst.constructed = false ∧ readField field s = raiseError .notConstructed (clearAddrOut field s)) ∨
    (s.inst.constructed = true ∧ (∀ f, s.fmt = formatTag f → layoutRule field f = none) ∧
      readField field s = raiseError .notInFormat (clearAddrOut field s)) ∨
    (∃ f rule, hasInstance (formatTag f) s ∧ layoutRule field f = some rule ∧ readField field s = rule s) := by
  unfold readField
  cases hc : s.inst.constructed
  · exact .inl ⟨rfl, rfl⟩
  · refine .inr ?_
    cases hf : formatOfTag s.fmt with
    | none =>
      refine .inl ⟨rfl, fun f h => ?_, rfl⟩
      rw [formatOfTag_eq_some.mpr h] at hf
      cases hf
    | some f =>
      have htag := formatOfTag_eq_some.mp hf
      cases hr : layoutRule field f with
      | none =>
        refine .inl ⟨rfl, fun g h => ?_, ?_⟩
        · rw [formatOfTag_eq_some.mpr h] at hf
          cases hf
          exact hr
        · simp [hr]
      | some rule => exact .inr ⟨f, rule, ⟨hc, htag⟩, hr, by simp [hr]⟩

/-- READ of a field the instance's format has (R131). -/
theorem readField_of_rule {field : Field} {f : Format} {rule : State → State} {s : State}
    (h : hasInstance (formatTag f) s) (hr : layoutRule field f = some rule) : readField field s = rule s := by
  simp [readField, h.1, formatOfTag_eq_some.mpr h.2, hr]

@[simp] theorem clearAddrOut_addr (s : State) : clearAddrOut .addr s = setAddrOut zeroAddress s := rfl

theorem clearAddrOut_of_ne {field : Field} (h : field ≠ .addr) (s : State) : clearAddrOut field s = s := if_neg h

/-! The step (R62, R82, R266) -/

theorem step_idle {s : State} (h : s.pending = []) : step s = .next { s with response := .idle } := by
  simp only [step, h]

theorem step_serve {s : State} {a : HostAction} {rest : List HostAction} (h : s.pending = a :: rest) :
    step s = serve a { s with pending := rest } := by
  simp only [step, h]

/-- A host write to any address but CMD's (R59). -/
theorem busWriteAction_of_ne {addr v : Byte} (h : locOf addr ≠ .cmd) (s : State) :
    busWriteAction addr v s = .next (busWrite s addr v) := if_neg h

/-- Starting a legal word (R82). -/
theorem startCommand_legal {op : Byte} {i : Instr} {s : State} (h : decode (commandWord op s.cmdArg) = .ok i) :
    startCommand op s = exec i { s with cmd := op } := by
  simp only [startCommand, h]

/-- Starting an illegal word (R83, R232). -/
theorem startCommand_illegal {op : Byte} {e : Illegal} {s : State}
    (h : decode (commandWord op s.cmdArg) = .error e) :
    startCommand op s = .next (raiseError .illegalCommand { s with cmd := op }) := by
  simp only [startCommand, h]

end Sys2Proof.Machine
end

