-- ==== Sys2Proof/Laws/Exec.lean ====
section
/-! SUPPORT. Everything a command can do, said once: the nine shapes of a command's next state. A proof about all commands takes
these cases instead of unfolding 22 meanings. -/

namespace Sys2Proof.Machine

/-- READ of a field, by what it can do (R131, R200). -/
theorem readField_shapes (field : Field) (s : State) :
    (∃ r : Reading, r.AbsentIsZero ∧ field ≠ .addr ∧ (∃ f, f ≠ .v8 ∧ hasInstance (formatTag f) s ∧ (layoutRule field f).isSome) ∧
      readField field s = finish r s) ∨
    (∃ a, field = .addr ∧ s.inst.constructed = true ∧ readField field s = readAddress a s) ∨
    (∃ e, (e = .notConstructed ∨ e = .notInFormat) ∧ field ≠ .addr ∧ readField field s = raiseError e s) ∨
    (∃ e, (e = .notConstructed ∨ e = .notInFormat) ∧ field = .addr ∧
      readField field s = raiseError e (setAddrOut zeroAddress s)) ∨
    (∃ r : Reading, r.AbsentIsZero ∧ field ≠ .addr ∧ (layoutRule field .v8).isSome ∧ hasInstance 0x08 s ∧
      (ensurePlain s).inst.crypt = cryptVerified ∧ readField field s = finish r (ensurePlain s)) ∨
    (field ≠ .addr ∧ (layoutRule field .v8).isSome ∧ hasInstance 0x08 s ∧
      (ensurePlain s).inst.crypt ≠ cryptVerified ∧ readField field s = raiseError .integrity (ensurePlain s)) := by
  have failed : ∀ e, (e = .notConstructed ∨ e = .notInFormat) →
      readField field s = raiseError e (clearAddrOut field s) →
      (∃ e, (e = .notConstructed ∨ e = .notInFormat) ∧ field ≠ .addr ∧ readField field s = raiseError e s) ∨
      (∃ e, (e = .notConstructed ∨ e = .notInFormat) ∧ field = .addr ∧
        readField field s = raiseError e (setAddrOut zeroAddress s)) := by
    intro e he h
    by_cases ha : field = .addr
    · subst ha; exact .inr ⟨e, he, rfl, h⟩
    · rw [clearAddrOut_of_ne ha] at h; exact .inl ⟨e, he, ha, h⟩
  rcases readField_cases field s with ⟨-, h⟩ | ⟨-, -, h⟩ | ⟨f, rule, hi, hr, h⟩
  · rcases failed _ (.inl rfl) h with h | h
    · exact .inr (.inr (.inl h))
    · exact .inr (.inr (.inr (.inl h)))
  · rcases failed _ (.inr rfl) h with h | h
    · exact .inr (.inr (.inl h))
    · exact .inr (.inr (.inr (.inl h)))
  · rcases layoutRule_cases hr with ⟨hf, h8, r, rfl, hz, -⟩ | ⟨hf, -, a, rfl, -⟩ | ⟨hf, rfl, r, rfl, hz, -⟩
    · exact .inl ⟨_, hz _, hf, ⟨f, h8, hi, by rw [hr]; rfl⟩, h⟩
    · exact .inr (.inl ⟨_, hf, hi.1, h⟩)
    · rcases plainGate_cases (fun t => finish (r t) t) s with ⟨hv, hg⟩ | ⟨hv, hg⟩
      · exact .inr (.inr (.inr (.inr (.inl ⟨_, hz _, hf, by rw [hr]; rfl, hi, hv, h.trans hg⟩))))
      · exact .inr (.inr (.inr (.inr (.inr ⟨hf, by rw [hr]; rfl, hi, hv, h.trans hg⟩))))

/-- VERIFY, by what it can do (R194). -/
theorem verifyInstance_shapes (s : State) :
    (∃ e, (e = .notConstructed ∨ e = .notInFormat) ∧ verifyInstance s = raiseError e s) ∨
    (hasInstance 0x08 s ∧ (ensurePlain s).inst.crypt = cryptVerified ∧
      verifyInstance s = finish noReading (ensurePlain s)) ∨
    (hasInstance 0x08 s ∧ (ensurePlain s).inst.crypt ≠ cryptVerified ∧
      verifyInstance s = raiseError .integrity (ensurePlain s)) := by
  rcases verifyInstance_cases s with ⟨-, h⟩ | ⟨-, -, h⟩ | ⟨hi, h⟩
  · exact .inl ⟨_, .inl rfl, h⟩
  · exact .inl ⟨_, .inr rfl, h⟩
  · rcases plainGate_cases (finish noReading) s with ⟨hv, hg⟩ | ⟨hv, hg⟩
    · exact .inr (.inl ⟨hi, hv, h.trans hg⟩)
    · exact .inr (.inr ⟨hi, hv, h.trans hg⟩)

/-- The field a READ command reads (R88). -/
def fieldOf : Instr → Option Field
  | .readTemp => some .temp
  | .readHumid => some .humid
  | .readPress => some .press
  | .readAccx => some .accx
  | .readAccy => some .accy
  | .readAccz => some .accz
  | .readBatt => some .batt
  | .readTxpwr => some .txpwr
  | .readMove => some .move
  | .readSeq => some .seq
  | .readAddr => some .addr
  | .nop | .clear | .decU16 | .decS16 | .decBm => none
  | .select | .constructV3 | .constructV5 | .constructC5 | .constructV8 | .verify => none

/-- Every READ command is the one dispatch of R131. -/
theorem exec_read {i : Instr} {field : Field} (h : fieldOf i = some field) (s : State) :
    exec i s = .next (readField field s) := by
  cases i <;> cases h <;> rfl

/-- The commands that construct or fail to construct, by what they can do (R122, R125, R127). -/
theorem exec_construction {i : Instr} (h : i ∈ Instr.select :: constructCommands) (s : State) :
    (∃ f, matchesFormat f s = true ∧ (f = .v8 → i = .constructV8 ∧ credentialLengthsOk s = true) ∧
      exec i s = .next (construct f (discardInstance s))) ∨
    (∃ e, (i = .select ∧ (e = .noDecoder ∨ e = .needsCredentials) ∨ i = .constructV8 ∧ e = .badCredentials ∨
        i ∈ constructCommands ∧ e = .formatMismatch) ∧
      exec i s = .next (raiseError e (discardInstance s))) := by
  have plain : ∀ f, f ≠ .v8 → i ∈ constructCommands → exec i s = .next (constructPlain f (discardInstance s)) → _ :=
    fun f hf hi hx => by
      unfold constructPlain at hx
      by_cases hm : matchesFormat f (discardInstance s) = true
      · rw [if_pos hm] at hx
        exact Or.inl (b := ∃ e, (i = .select ∧ (e = .noDecoder ∨ e = .needsCredentials) ∨
          i = .constructV8 ∧ e = .badCredentials ∨ i ∈ constructCommands ∧ e = .formatMismatch) ∧
          exec i s = .next (raiseError e (discardInstance s)))
          (⟨f, hm, fun h => absurd h hf, hx⟩ : ∃ f, matchesFormat f s = true ∧
            (f = .v8 → i = .constructV8 ∧ credentialLengthsOk s = true) ∧
            exec i s = .next (construct f (discardInstance s)))
      · rw [if_neg hm] at hx
        exact Or.inr ⟨.formatMismatch, .inr (.inr ⟨hi, rfl⟩), hx⟩
  simp only [constructCommands, List.mem_cons, List.not_mem_nil, or_false] at h
  rcases h with rfl | rfl | rfl | rfl | rfl
  · rcases selectFormat_cases (discardInstance s) with ⟨f, h8, hm, e⟩ | ⟨-, e⟩ | ⟨-, e⟩
    · exact .inl ⟨f, hm, fun h => absurd h h8, congrArg Host.Outcome.next e⟩
    · exact .inr ⟨_, .inl ⟨rfl, .inr rfl⟩, congrArg Host.Outcome.next e⟩
    · exact .inr ⟨_, .inl ⟨rfl, .inl rfl⟩, congrArg Host.Outcome.next e⟩
  · exact plain .v3 nofun (by decide) rfl
  · exact plain .v5 nofun (by decide) rfl
  · exact plain .c5 nofun (by decide) rfl
  · rcases constructEncrypted_cases (discardInstance s) with ⟨hm, hc, e⟩ | ⟨-, -, e⟩ | ⟨-, -, e⟩
    · exact .inl ⟨.v8, hm, fun _ => ⟨rfl, hc⟩, congrArg Host.Outcome.next e⟩
    · exact .inr ⟨_, .inr (.inr ⟨by decide, rfl⟩), congrArg Host.Outcome.next e⟩
    · exact .inr ⟨_, .inr (.inl ⟨rfl, rfl⟩), congrArg Host.Outcome.next e⟩

/-- Every command's next state, in nine shapes (the rules of the 22 rows of R88). -/
theorem exec_shapes (i : Instr) (s : State) :
    (∃ r : Reading, r.AbsentIsZero ∧ i ∉ Instr.clear :: Instr.select :: Instr.verify :: Instr.readAddr :: constructCommands ∧
      exec i s = .next (finish r s)) ∨
    (i = .clear ∧ exec i s = .next (finish noReading (clearCore s))) ∨
    (∃ f, i ∈ Instr.select :: constructCommands ∧ matchesFormat f s = true ∧
      (f = .v8 → i = .constructV8 ∧ credentialLengthsOk s = true) ∧
      exec i s = .next (construct f (discardInstance s))) ∨
    (∃ e, (i = .select ∧ (e = .noDecoder ∨ e = .needsCredentials) ∨ i = .constructV8 ∧ e = .badCredentials ∨
        i ∈ constructCommands ∧ e = .formatMismatch) ∧ exec i s = .next (raiseError e (discardInstance s))) ∨
    (∃ a, i = .readAddr ∧ s.inst.constructed = true ∧ exec i s = .next (readAddress a s)) ∨
    (∃ e, (e = .notConstructed ∨ e = .notInFormat) ∧ i ∈ Instr.verify :: valueReads ∧
      exec i s = .next (raiseError e s)) ∨
    (∃ e, (e = .notConstructed ∨ e = .notInFormat) ∧ i = .readAddr ∧
      exec i s = .next (raiseError e (setAddrOut zeroAddress s))) ∨
    (∃ r : Reading, r.AbsentIsZero ∧ i ∈ Instr.verify :: plaintextReads ∧ hasInstance 0x08 s ∧
      (ensurePlain s).inst.crypt = cryptVerified ∧ exec i s = .next (finish r (ensurePlain s))) ∨
    (i ∈ Instr.verify :: plaintextReads ∧ hasInstance 0x08 s ∧ (ensurePlain s).inst.crypt ≠ cryptVerified ∧
      exec i s = .next (raiseError .integrity (ensurePlain s))) := by
  have next : ∀ {t}, exec i s = .next t → ∀ {u}, t = u → exec i s = .next u := fun h _ e => e ▸ h
  cases hf : fieldOf i with
  | some field =>
    have hx := exec_read hf s
    have hi : i ∉ Instr.clear :: Instr.select :: Instr.verify :: constructCommands := by
      cases i <;> first | decide | cases hf
    have ha : field = .addr ↔ i = .readAddr := by cases i <;> cases hf <;> decide
    have hv : field ≠ .addr → i ∈ valueReads := by cases i <;> cases hf <;> decide
    have hp : field ≠ .addr → (layoutRule field .v8).isSome → i ∈ plaintextReads := by
      cases i <;> cases hf <;> first
        | exact fun _ _ => by decide
        | exact fun _ h => absurd h (by decide)
        | exact fun h => absurd rfl h
    rcases readField_shapes field s with ⟨r, hz, hn, -, e⟩ | ⟨a, hn, hc, e⟩ | ⟨x, hxe, hn, e⟩ | ⟨x, hxe, hn, e⟩ |
        ⟨r, hz, hn, hl, h8, hc, e⟩ | ⟨hn, hl, h8, hc, e⟩
    · refine .inl ⟨r, hz, ?_, next hx e⟩
      simp only [List.mem_cons, not_or] at hi ⊢
      exact ⟨hi.1, hi.2.1, hi.2.2.1, mt ha.mpr hn, hi.2.2.2⟩
    · exact .inr (.inr (.inr (.inr (.inl ⟨a, ha.mp hn, hc, next hx e⟩))))
    · exact .inr (.inr (.inr (.inr (.inr (.inl ⟨x, hxe, .tail _ (hv hn), next hx e⟩)))))
    · exact .inr (.inr (.inr (.inr (.inr (.inr (.inl ⟨x, hxe, ha.mp hn, next hx e⟩))))))
    · exact .inr (.inr (.inr (.inr (.inr (.inr (.inr (.inl ⟨r, hz, .tail _ (hp hn hl), h8, hc, next hx e⟩)))))))
    · exact .inr (.inr (.inr (.inr (.inr (.inr (.inr (.inr ⟨.tail _ (hp hn hl), h8, hc, next hx e⟩)))))))
  | none =>
    by_cases hs : i ∈ Instr.select :: constructCommands
    · rcases exec_construction hs s with ⟨f, hm, h8, e⟩ | ⟨x, hxe, e⟩
      · exact .inr (.inr (.inl ⟨f, hs, hm, h8, e⟩))
      · exact .inr (.inr (.inr (.inl ⟨x, hxe, e⟩)))
    · by_cases hv : i = .verify
      · subst hv
        rcases verifyInstance_shapes s with ⟨x, hxe, e⟩ | ⟨h8, hc, e⟩ | ⟨h8, hc, e⟩
        · exact .inr (.inr (.inr (.inr (.inr (.inl ⟨x, hxe, .head _, congrArg Host.Outcome.next e⟩)))))
        · exact .inr (.inr (.inr (.inr (.inr (.inr (.inr (.inl
            ⟨_, noReading_absentIsZero, .head _, h8, hc, congrArg Host.Outcome.next e⟩)))))))
        · exact .inr (.inr (.inr (.inr (.inr (.inr (.inr (.inr
            ⟨.head _, h8, hc, congrArg Host.Outcome.next e⟩)))))))
      · cases i <;> first
          | exact .inr (.inl ⟨rfl, rfl⟩)
          | exact .inl ⟨_, noReading_absentIsZero, by decide, rfl⟩
          | exact .inl ⟨_, decodeField_absentIsZero _ _ _ _ _ _, by decide, rfl⟩
          | exact absurd (by decide) hs
          | exact absurd rfl hv
          | cases hf

end Sys2Proof.Machine
end

