-- ==== Sys2Proof/Laws/PerInstr.lean ====
section
/-! SUPPORT. A family with one lemma per constructor of `Instr`: the command's word is legal, disassembles to the
mnemonic of the command's row, and prints as `CMD <mnemonic>` (spec/30_encoding.md R83, R93). -/

namespace Sys2Proof.Laws.WordNames

/-- The command is well formed, its word is legal (R83), the word disassembles to the row's mnemonic, and its
write prints as `CMD <mnemonic>` (R93). -/
def Statement (i : Instr) : Prop :=
  i.wellFormed = true ∧ wordLegal (wordOp (encode i)) (wordArg (encode i)) = true ∧ disassemble (encode i) = i.mnemonic ∧
    printCommand (encode i) = "CMD " ++ i.mnemonic

theorem nop : Statement .nop := ⟨rfl, rfl, rfl, rfl⟩
theorem clear : Statement .clear := ⟨rfl, rfl, rfl, rfl⟩
theorem decU16 : Statement .decU16 := ⟨rfl, rfl, rfl, rfl⟩
theorem decS16 : Statement .decS16 := ⟨rfl, rfl, rfl, rfl⟩
theorem decBm : Statement .decBm := ⟨rfl, rfl, rfl, rfl⟩
theorem select : Statement .select := ⟨rfl, rfl, rfl, rfl⟩
theorem constructV3 : Statement .constructV3 := ⟨rfl, rfl, rfl, rfl⟩
theorem constructV5 : Statement .constructV5 := ⟨rfl, rfl, rfl, rfl⟩
theorem constructC5 : Statement .constructC5 := ⟨rfl, rfl, rfl, rfl⟩
theorem constructV8 : Statement .constructV8 := ⟨rfl, rfl, rfl, rfl⟩
theorem readTemp : Statement .readTemp := ⟨rfl, rfl, rfl, rfl⟩
theorem readHumid : Statement .readHumid := ⟨rfl, rfl, rfl, rfl⟩
theorem readPress : Statement .readPress := ⟨rfl, rfl, rfl, rfl⟩
theorem readAccx : Statement .readAccx := ⟨rfl, rfl, rfl, rfl⟩
theorem readAccy : Statement .readAccy := ⟨rfl, rfl, rfl, rfl⟩
theorem readAccz : Statement .readAccz := ⟨rfl, rfl, rfl, rfl⟩
theorem readBatt : Statement .readBatt := ⟨rfl, rfl, rfl, rfl⟩
theorem readTxpwr : Statement .readTxpwr := ⟨rfl, rfl, rfl, rfl⟩
theorem readMove : Statement .readMove := ⟨rfl, rfl, rfl, rfl⟩
theorem readSeq : Statement .readSeq := ⟨rfl, rfl, rfl, rfl⟩
theorem readAddr : Statement .readAddr := ⟨rfl, rfl, rfl, rfl⟩
theorem verify : Statement .verify := ⟨rfl, rfl, rfl, rfl⟩

end Sys2Proof.Laws.WordNames
end

