-- ==== Sys2Proof/Laws/Step.lean ====
section
/-! SUPPORT. Everything a step can do, said once: the six cases of the host's next action (R59, R82, R260, R266). -/

namespace Sys2Proof.Machine

/-- The cases of a step: idle, a read, `rst`, a register write, a legal command, an illegal word. -/
theorem step_cases {s t : State} (h : step s = .next t) :
    (s.pending = [] ∧ t = { s with response := .idle }) ∨
    (∃ addr rest, s.pending = .read addr :: rest ∧
      t = { s with pending := rest, response := .data (busRead s addr) }) ∨
    (∃ rest, s.pending = .reset :: rest ∧ t = resetRegisters { s with pending := rest }) ∨
    (∃ addr v rest, addr ≠ 0x50 ∧ s.pending = .write addr v :: rest ∧
      t = busWrite { s with pending := rest, response := .done } addr v) ∨
    (∃ op rest i, s.pending = .write 0x50 op :: rest ∧ decode (commandWord op s.cmdArg) = .ok i ∧
      exec i { s with cmd := op, pending := rest, response := .done } = .next t) ∨
    (∃ op rest e, s.pending = .write 0x50 op :: rest ∧ decode (commandWord op s.cmdArg) = .error e ∧
      t = raiseError .illegalCommand { s with cmd := op, pending := rest, response := .done }) := by
  cases hp : s.pending with
  | nil =>
    rw [step_idle hp] at h
    exact .inl ⟨rfl, by rw [← hp]; exact (Host.Outcome.next.inj h).symm⟩
  | cons a rest =>
    rw [step_serve hp] at h
    cases a with
    | read addr => exact .inr (.inl ⟨addr, rest, rfl, (Host.Outcome.next.inj h).symm⟩)
    | reset => exact .inr (.inr (.inl ⟨rest, rfl, (Host.Outcome.next.inj h).symm⟩))
    | write addr v =>
      by_cases ha : addr = 0x50
      · subst ha
        change startCommand v { s with pending := rest, response := .done } = .next t at h
        cases hd : decode (commandWord v s.cmdArg) with
        | ok i =>
          refine .inr (.inr (.inr (.inr (.inl ⟨v, rest, i, rfl, hd, ?_⟩))))
          rw [← h]
          exact (startCommand_legal (s := { s with pending := rest, response := .done }) hd).symm
        | error e =>
          refine .inr (.inr (.inr (.inr (.inr ⟨v, rest, e, rfl, hd, ?_⟩))))
          exact Host.Outcome.next.inj
            (h.symm.trans (startCommand_illegal (s := { s with pending := rest, response := .done }) hd))
      · refine .inr (.inr (.inr (.inl ⟨addr, v, rest, ha, rfl, ?_⟩)))
        exact Host.Outcome.next.inj (h.symm.trans (busWriteAction_of_ne (mt (locOf_eq_cmd addr).mp ha) _))

/-- A run that begins with a step to t goes on from t. -/
theorem core_run_succ {s t : State} (h : step s = .next t) (n : Nat) :
    Host.Core.run Sys2Proof.core (n + 1) s = Host.Core.run Sys2Proof.core n t := by
  have h' : Sys2Proof.core.step s = .next t := h
  simp only [Host.Core.run, h']

end Sys2Proof.Machine
end

