-- ==== Sys2Proof/Tests/Slice0.lean ====
section
/-! SUPPORT. Tests: the checks of WellFormed, the decoding of every word, the known answers of the cipher and the CRC, one step for
each command on a vector of spec/95_test_vectors.md, and, for every statement with hypotheses, a witness that meets them. -/

open Sys2Proof Sys2Proof.Machine

namespace Sys2Proof.Tests

/-! ## Helpers -/

/-- The reset state with a payload, PLEN, an instance of a format, and credentials of the lengths V8 needs. -/
def instanceOf (tag plen : Byte) (payload : Vector Byte 24) : State :=
  { State.reset with
    payload := payload, plen := plen, fmt := tag, inst := ⟨true, 0b00⟩
    devid := #v[0xA1, 0xB2, 0xC3, 0xD4, 0xE5, 0xF6, 0x07, 0x18], devidLen := 8
    passwd := #v[0x2B, 0x7E, 0x15, 0x16, 0x28, 0xAE, 0xD2, 0xA6, 0xAB, 0xF7, 0x15, 0x88, 0x09, 0xCF, 0x4F, 0x3C]
    passLen := 16 }

/-- The payload of V-L1-2, with the acceleration X bytes of V-V3-11. -/
def v3 : State := instanceOf 0x03 14
  #v[0x03, 0x29, 0x15, 0x45, 0xFF, 0xFF, 0x80, 0x00, 0xFF, 0xFC, 0x04, 0x0C, 0x0B, 0xA1, 0x00,
    0x00, 0x00, 0x00, 0x00, 0x00, 0x00, 0x00, 0x00, 0x00]

/-- The V3 payload of V-V3-3, V-V3-9, V-V3-12 and V-V3-14. -/
def v3Negative : State := instanceOf 0x03 14
  #v[0x03, 0xFF, 0x81, 0x45, 0xC3, 0x7C, 0x00, 0x04, 0x7F, 0xFF, 0x04, 0x0C, 0xFF, 0xFF, 0x00,
    0x00, 0x00, 0x00, 0x00, 0x00, 0x00, 0x00, 0x00, 0x00]

/-- The V3 payload of V-V3-7: the largest temperature and fraction. -/
def v3Edge : State := instanceOf 0x03 14
  #v[0x03, 0x29, 0x7F, 0x63, 0xC3, 0x7C, 0x00, 0x04, 0xFF, 0xFC, 0x04, 0x0C, 0x0B, 0xA1, 0x00,
    0x00, 0x00, 0x00, 0x00, 0x00, 0x00, 0x00, 0x00, 0x00]

/-- The V3 payload of V-V3-5: fraction 100. -/
def v3Absent : State := instanceOf 0x03 14
  #v[0x03, 0x29, 0x15, 0x64, 0xC3, 0x7C, 0x00, 0x04, 0xFF, 0xFC, 0x04, 0x0C, 0x0B, 0xA1, 0x00,
    0x00, 0x00, 0x00, 0x00, 0x00, 0x00, 0x00, 0x00, 0x00]

/-- The payload of V-L1-1. -/
def v5 : State := instanceOf 0x05 24
  #v[0x05, 0x12, 0xFC, 0x53, 0x94, 0xC3, 0x7C, 0x00, 0x04, 0xFF, 0xFC, 0x04, 0x0C, 0xAC, 0x36,
    0x42, 0x00, 0xCD, 0xCB, 0xB8, 0x33, 0x4C, 0x88, 0x4F]

/-- The payload of V-V5-ALLSENT. -/
def v5Absent : State := instanceOf 0x05 24
  #v[0x05, 0x80, 0x00, 0xFF, 0xFF, 0xFF, 0xFF, 0x80, 0x00, 0x80, 0x00, 0x80, 0x00, 0xFF, 0xFF,
    0xFF, 0xFF, 0xFF, 0xFF, 0xFF, 0xFF, 0xFF, 0xFF, 0xFF]

/-- The payload of V-V5-C, with the address of V-V5-A. -/
def v5Corner : State := instanceOf 0x05 24
  #v[0x05, 0x7F, 0xFF, 0xFF, 0xFE, 0x00, 0x00, 0x7F, 0xFF, 0x80, 0x01, 0x00, 0x00, 0xFF, 0xC0,
    0xFE, 0x00, 0x00, 0xFF, 0xFF, 0xFF, 0xFF, 0xFF, 0xFE]

/-- The payload of V-L1-3. -/
def c5 : State := instanceOf 0xC5 18
  #v[0xC5, 0x12, 0xFC, 0x53, 0x94, 0xC3, 0x7C, 0xAC, 0x36, 0x42, 0x00, 0xCD, 0xCB, 0xB8, 0x33,
    0x4C, 0x88, 0x4F, 0x00, 0x00, 0x00, 0x00, 0x00, 0x00]

/-- The payload of V-C5-ALLSENT. -/
def c5Absent : State := instanceOf 0xC5 18
  #v[0xC5, 0x80, 0x00, 0xFF, 0xFF, 0xFF, 0xFF, 0xFF, 0xFF, 0xFF, 0xFF, 0xFF, 0xFF, 0xFF, 0xFF,
    0xFF, 0xFF, 0xFF, 0x00, 0x00, 0x00, 0x00, 0x00, 0x00]

/-- The payload of V-V8-1. -/
def v8 : State := instanceOf 0x08 24
  #v[0x08, 0x15, 0xF5, 0x24, 0x3B, 0x1B, 0x8D, 0x5A, 0x23, 0x03, 0x5B, 0x40, 0xF2, 0x85, 0xEB,
    0xA1, 0x28, 0x49, 0xCB, 0xB8, 0x33, 0x4C, 0x88, 0x4F]

/-- The payload of V-V8-3: a corrupted CRC byte. -/
def v8Corrupt : State := instanceOf 0x08 24
  #v[0x08, 0x15, 0xF5, 0x24, 0x3B, 0x1B, 0x8D, 0x5A, 0x23, 0x03, 0x5B, 0x40, 0xF2, 0x85, 0xEB,
    0xA1, 0x28, 0x48, 0xCB, 0xB8, 0x33, 0x4C, 0x88, 0x4F]

/-- The payload of V-V8-6. -/
def v8Corner : State := instanceOf 0x08 24
  #v[0x08, 0x88, 0x43, 0x80, 0x88, 0x44, 0xCF, 0x74, 0xC6, 0x8F, 0x8C, 0x88, 0x30, 0x37, 0x17,
    0x0F, 0x87, 0x65, 0xCB, 0xB8, 0x33, 0x4C, 0x88, 0x4F]

/-- A state with operands for the primitive commands. -/
def operands (opa opmask opinv : Half) (invEn : Bool) (opoff opmul : Wide) : State :=
  { State.reset with opa := opa, opmask := opmask, opinv := opinv, opctrl := ⟨invEn⟩, opoff := opoff, opmul := opmul }

/-- What the step that runs word w leaves in STATUS, RESULT and RAW. -/
def outputs (w : Nat) (s : State) : Option (Byte × Int × Half) :=
  match step (s.withFetchWord 16 w) with
  | .next t => some (statusByte t.status, t.result.toInt, t.raw)
  | .fault _ | .refused _ => none

/-- What the step that runs word w leaves in STATUS, FMT, INST and ERRLOG. -/
def instanceAfter (w : Nat) (s : State) : Option (Byte × Byte × Byte × Byte) :=
  match step (s.withFetchWord 16 w) with
  | .next t => some (statusByte t.status, t.fmt, instByte t.inst, t.errlog)
  | .fault _ | .refused _ => none

/-- What the step that runs word w leaves in STATUS and ADDR_OUT. -/
def addressAfter (w : Nat) (s : State) : Option (Byte × Vector Byte 6) :=
  match step (s.withFetchWord 16 w) with
  | .next t => some (statusByte t.status, t.addrOut)
  | .fault _ | .refused _ => none

/-! ## WellFormed: one illegal word for each check (V-I-2, V-I-3, V-I-6, V-I-7), and the other words of section 2.9 -/

theorem test_unassigned_opcode_refused : opAssigned 0x02 = false ∧ wordLegal 0x02 0x00 = false := by decide

theorem test_argument_refused : argumentAbsent 0x10 0x01 = false ∧ wordLegal 0x10 0x01 = false := by decide

theorem test_tag_refused : argumentIsTag 0x21 0x04 = false ∧ wordLegal 0x21 0x04 = false := by decide

theorem test_field_refused : argumentIsField 0x30 0x0B = false ∧ wordLegal 0x30 0x0B = false := by decide

theorem test_illegal_words_by_name :
    decode 0x0001 = .error (.argNotZero 0x00 0x01) ∧ decode 0x0200 = .error (.unassignedOp 0x02) ∧
    decode 0x1001 = .error (.argNotZero 0x10 0x01) ∧ decode 0x2001 = .error (.argNotZero 0x20 0x01) ∧
    decode 0x2100 = .error (.notATag 0x00) ∧ decode 0x2104 = .error (.notATag 0x04) ∧
    decode 0x300B = .error (.notAField 0x0B) ∧ decode 0x30FF = .error (.notAField 0xFF) ∧
    decode 0x3101 = .error (.argNotZero 0x31 0x01) ∧ decode 0xFFFF = .error (.unassignedOp 0xFF) := by
  refine ⟨?_, ?_, ?_, ?_, ?_, ?_, ?_, ?_, ?_, ?_⟩ <;> rfl

/-- V-I-1: the illegal word's completion. -/
theorem test_illegal_completion : instanceAfter 0x0001 v5 = some (0x08, 0x05, 0x01, 0x80) := by decide

/-! ## Decoding: every word of R88, its bits 15:8 and 7:0 written out -/

theorem test_decode_control :
    decode 0b0000000000000000#16 = .ok .nop ∧ decode 0b0000000100000000#16 = .ok .clear := ⟨rfl, rfl⟩

theorem test_decode_primitives :
    decode 0b0001000000000000#16 = .ok .decU16 ∧ decode 0b0001000100000000#16 = .ok .decS16 ∧
    decode 0b0001001000000000#16 = .ok .decBm := ⟨rfl, rfl, rfl⟩

theorem test_decode_construction :
    decode 0b0010000000000000#16 = .ok .select ∧ decode 0b0010000100000011#16 = .ok .constructV3 ∧
    decode 0b0010000100000101#16 = .ok .constructV5 ∧ decode 0b0010000111000101#16 = .ok .constructC5 ∧
    decode 0b0010000100001000#16 = .ok .constructV8 := ⟨rfl, rfl, rfl, rfl, rfl⟩

theorem test_decode_sensor_reads :
    decode 0b0011000000000000#16 = .ok .readTemp ∧ decode 0b0011000000000001#16 = .ok .readHumid ∧
    decode 0b0011000000000010#16 = .ok .readPress ∧ decode 0b0011000000000011#16 = .ok .readAccx ∧
    decode 0b0011000000000100#16 = .ok .readAccy ∧ decode 0b0011000000000101#16 = .ok .readAccz :=
  ⟨rfl, rfl, rfl, rfl, rfl, rfl⟩

theorem test_decode_other_reads :
    decode 0b0011000000000110#16 = .ok .readBatt ∧ decode 0b0011000000000111#16 = .ok .readTxpwr ∧
    decode 0b0011000000001000#16 = .ok .readMove ∧ decode 0b0011000000001001#16 = .ok .readSeq ∧
    decode 0b0011000000001010#16 = .ok .readAddr := ⟨rfl, rfl, rfl, rfl, rfl⟩

theorem test_decode_verify : decode 0b0011000100000000#16 = .ok .verify := rfl

theorem test_table_word : decodeTableWord 16 0x21C5 = some .constructC5 ∧ decodeTableWord 16 0x300B = none := ⟨rfl, rfl⟩

theorem test_fetch_runs_word :
    step (State.reset.withFetchWord 16 0x3001) =
      exec .readHumid { State.reset with cmd := 0x30, cmdArg := 0x01, response := .done } := rfl

/-- P3, line 18: a word without a mnemonic prints as R93 says. -/
theorem test_disassemble :
    disassemble 0x1101 = ".illegal 0x1101" ∧ disassemble 0x21C5 = "CONSTRUCT.C5" := by decide

/-- P1, line 2, and P3, line 18: the printed form of a CMD write, by R93. -/
theorem test_printCmdWrite :
    printCmdWrite 0x20 State.reset = "CMD SELECT" ∧
    printCmdWrite 0x11 { State.reset with cmdArg := 0x01 } = ".illegal 0x1101" := by decide

/-! ## Known answers (part 3) -/

/-- V-AES-1. -/
theorem test_aes :
    aes128Dec #v[0x00, 0x01, 0x02, 0x03, 0x04, 0x05, 0x06, 0x07, 0x08, 0x09, 0x0A, 0x0B, 0x0C, 0x0D, 0x0E, 0x0F]
      #v[0x69, 0xC4, 0xE0, 0xD8, 0x6A, 0x7B, 0x04, 0x30, 0xD8, 0xCD, 0xB7, 0x80, 0x70, 0xB4, 0xC5, 0x5A] =
    #v[0x00, 0x11, 0x22, 0x33, 0x44, 0x55, 0x66, 0x77, 0x88, 0x99, 0xAA, 0xBB, 0xCC, 0xDD, 0xEE, 0xFF] := by
  decide +kernel

/-- V-V8-1 with another AES128_DEC (R4, R181), one that gives zeros for this key and block: CRC8 of zeros is 0x00 and
PAYLOAD[17] is 0x49, so VERIFY gives INTEGRITY (R192, R194). -/
theorem test_verify_other_cipher :
    let zeros : CipherAnswer := ⟨deriveKey v8.passwd v8.devid, cipherBlock v8.payload, Vector.replicate 16 0⟩
    instanceAfter 0x3100 { v8 with cfg := ⟨.formatFirst, crc8Table, [zeros]⟩ } = some (0x05, 0x08, 0x05, 0x10) := by
  decide +kernel

/-- V-CRC-1 and V-CRC-2. -/
theorem test_crc :
    crc8 crc8Table [0x31, 0x32, 0x33, 0x34, 0x35, 0x36, 0x37, 0x38, 0x39] = 0xF4 ∧ crc8 crc8Table [] = 0x00 ∧
    crc8 crc8Table [0xFF] = 0xF3 ∧ crc8 crc8Table (List.replicate 16 0xFF) = 0xFA ∧
    crc8 crc8Table [0x12, 0xFC, 0x53, 0x94, 0xC3, 0x7C, 0xAC, 0x36, 0, 0x42, 0, 0xCD, 0, 0, 0, 0] = 0x49 := by
  decide +kernel

/-! ## One step for each command, against part 1, 2 and 4 -/

/-- V-N-1: the instance and ADDR_OUT stay. -/
theorem test_nop : instanceAfter 0x0000 v5 = some (0x00, 0x05, 0x01, 0x00) := by decide

/-- V-N-2: the instance, ERRLOG and ADDR_OUT go, the payload stays. -/
theorem test_clear : instanceAfter 0x0100 { v5 with errlog := 0x80 } = some (0x00, 0x00, 0x00, 0x00) ∧
    addressAfter 0x0100 { v5 with addrOut := #v[1, 2, 3, 4, 5, 6] } = some (0x00, #v[0, 0, 0, 0, 0, 0]) := by decide

/-- V-P-6. -/
theorem test_decU16_overflow : outputs 0x1000 (operands 0xFFFF 0 0 false 0 0x7FFFFFFF) = some (0x30, 2147418113, 0xFFFF) := by decide

/-- V-P-2. -/
theorem test_decU16_sentinel : outputs 0x1000 (operands 0xFFFF 0 0xFFFF true 50000 100) = some (0x00, 0, 0xFFFF) := by decide

/-- V-P-11: the sentinel is compared unsigned. -/
theorem test_decS16_sentinel : outputs 0x1100 (operands 0x8000 0 0x8000 true 0 50) = some (0x00, 0, 0x8000) := by decide

/-- V-P-14. -/
theorem test_decS16_overflow : outputs 0x1100 (operands 0x8000 0 0 false 0x80000000 1) = some (0x30, 2147450880, 0x8000) := by decide

/-- V-P-17: a negative offset. -/
theorem test_decBm : outputs 0x1200 (operands 0xAC36 0x001F 31 true 0xFFFFFFEC 20000) = some (0x10, 40000, 0x0016) := by decide

/-- V-P-21: masked before the sentinel test. -/
theorem test_decBm_sentinel : outputs 0x1200 (operands 0xFFFF 0x001F 31 true 0xFFFFFFEC 20000) = some (0x00, 0, 0x001F) := by decide

/-- V-S-2: the C5 payload. -/
theorem test_select : instanceAfter 0x2000 { c5 with fmt := 0, inst := ⟨false, 0⟩ } = some (0x00, 0xC5, 0x01, 0x00) := by decide

/-- V-S-6: NEEDS_CREDENTIALS, and the old instance is discarded. -/
theorem test_select_v8 : instanceAfter 0x2000 v8 = some (0x02, 0x00, 0x00, 0x02) := by decide

/-- V-C-6. -/
theorem test_constructV3 : instanceAfter 0x2103 v3 = some (0x00, 0x03, 0x01, 0x00) := by decide

/-- V-C-3. -/
theorem test_constructV3_mismatch : instanceAfter 0x2103 v5 = some (0x04, 0x00, 0x00, 0x08) := by decide

/-- V-C-1. -/
theorem test_constructV5 : instanceAfter 0x2105 v5 = some (0x00, 0x05, 0x01, 0x00) := by decide

/-- V-C-2. -/
theorem test_constructV5_mismatch : instanceAfter 0x2105 c5 = some (0x04, 0x00, 0x00, 0x08) := by decide

/-- V-C-5. -/
theorem test_constructC5 : instanceAfter 0x21C5 c5 = some (0x00, 0xC5, 0x01, 0x00) := by decide

/-- V-C-4: the C5 tag with the V5 length. -/
theorem test_constructC5_mismatch : instanceAfter 0x21C5 { c5 with plen := 24 } = some (0x04, 0x00, 0x00, 0x08) := by decide

/-- V-C-7. -/
theorem test_constructV8 : instanceAfter 0x2108 v8 = some (0x00, 0x08, 0x01, 0x00) := by decide

/-- V-C-11 under both check orders. -/
theorem test_constructV8_order : instanceAfter 0x2108 { v8 with plen := 23, passLen := 15 } = some (0x04, 0x00, 0x00, 0x08) ∧
    instanceAfter 0x2108 { v8 with plen := 23, passLen := 15, cfg := ⟨.credentialsFirst, crc8Table, []⟩ } =
      some (0x03, 0x00, 0x00, 0x04) := by decide

/-- V-V3-3: negative. -/
theorem test_readTemp_v3 : outputs 0x3000 v3Negative = some (0x10, -16900, 0x8145) := by decide

/-- V-V8-1-TEMP: the first plaintext read runs the three stages. -/
theorem test_readTemp_v8 : outputs 0x3000 v8 = some (0x10, 243000, 0x12FC) := by decide +kernel

/-- V-V3-9. -/
theorem test_readHumid_v3 : outputs 0x3001 v3Negative = some (0x10, 1275000, 0x00FF) := by decide

/-- V-L1-1-HUMID on the C5 payload. -/
theorem test_readHumid_c5 : outputs 0x3001 c5 = some (0x10, 534900, 0x5394) := by decide

/-- V-L1-2: no sentinel. -/
theorem test_readPress_v3 : outputs 0x3002 v3 = some (0x10, 11553500, 0xFFFF) := by decide

/-- V-V5-ALLSENT: the sentinel. -/
theorem test_readPress_v5 : outputs 0x3002 v5Absent = some (0x00, 0, 0xFFFF) := by decide

/-- V-V3-11: no sentinel. -/
theorem test_readAccx_v3 : outputs 0x3003 v3 = some (0x10, -327680, 0x8000) := by decide

/-- V-C5-ALLSENT: C5 has no acceleration. -/
theorem test_readAccx_c5 : outputs 0x3003 c5Absent = some (0x07, 0, 0x0000) := by decide

/-- V-V3-12. -/
theorem test_readAccy_v3 : outputs 0x3004 v3Negative = some (0x10, 327670, 0x7FFF) := by decide

/-- V-V5-C: one above the sentinel. -/
theorem test_readAccy_v5 : outputs 0x3004 v5Corner = some (0x10, -327670, 0x8001) := by decide

/-- V-L1-2-ACCZ. -/
theorem test_readAccz_v3 : outputs 0x3005 v3 = some (0x10, 10360, 0x040C) := by decide

/-- V-L1-1-ACCZ. -/
theorem test_readAccz_v5 : outputs 0x3005 v5 = some (0x10, 10360, 0x040C) := by decide

/-- V-V3-14. -/
theorem test_readBatt_v3 : outputs 0x3006 v3Negative = some (0x10, 655350, 0xFFFF) := by decide

/-- V-L1-1-BATT on the C5 payload. -/
theorem test_readBatt_c5 : outputs 0x3006 c5 = some (0x10, 29770, 0x0561) := by decide

/-- V-V5-C. -/
theorem test_readTxpwr_v5 : outputs 0x3007 v5Corner = some (0x10, -400000, 0x0000) := by decide

/-- V-L1-1-TXPWR on the C5 payload. -/
theorem test_readTxpwr_c5 : outputs 0x3007 c5 = some (0x10, 40000, 0x0016) := by decide

/-- V-V5-C: one below the sentinel. -/
theorem test_readMove_v5 : outputs 0x3008 v5Corner = some (0x10, 2540000, 0x00FE) := by decide

/-- V-V8-6: 255 is not the V8 sentinel. -/
theorem test_readMove_v8 : outputs 0x3008 v8Corner = some (0x10, 2550000, 0x00FF) := by decide +kernel

/-- V-L1-1-SEQ. -/
theorem test_readSeq_v5 : outputs 0x3009 v5 = some (0x10, 2050000, 0x00CD) := by decide

/-- V-C5-ALLSENT. -/
theorem test_readSeq_c5 : outputs 0x3009 c5Absent = some (0x00, 0, 0xFFFF) := by decide

/-- V-V5-A. -/
theorem test_readAddr_v5 : addressAfter 0x300A v5Corner = some (0x10, #v[0xFF, 0xFF, 0xFF, 0xFF, 0xFF, 0xFE]) := by decide

/-- V-V8-3: the address is outside the integrity gate. -/
theorem test_readAddr_v8 : addressAfter 0x300A v8Corrupt = some (0x10, #v[0xCB, 0xB8, 0x33, 0x4C, 0x88, 0x4F]) := by decide

/-- V-V8-1: VERIFY gives INST 0x03. -/
theorem test_verify : instanceAfter 0x3100 v8 = some (0x00, 0x08, 0x03, 0x00) := by decide +kernel

/-- V-E-3. -/
theorem test_verify_not_v8 : instanceAfter 0x3100 v5 = some (0x07, 0x05, 0x01, 0x40) := by decide

/-! ## The bus (part 2.10) -/

/-- V-B-2, V-B-4 and V-B-5. -/
theorem test_bus_reads :
    busRead State.reset 0x66 = 0x04 ∧ busRead State.reset 0x67 = 0x99 ∧
    busRead (busWrite State.reset 0x46 0xFF) 0x46 = 0x01 ∧ busRead { v8 with key := Vector.replicate 16 0x55 } 0x70 = 0x00 := by
  decide

/-- V-B-8: writing the same PLEN discards the instance. -/
theorem test_input_write_discards : busRead (busWrite v5 0x18 24) 0x55 = 0x00 := by decide

/-- V-B-6: an operand write does not. -/
theorem test_operand_write_keeps : busRead (busWrite v5 0x40 0x99) 0x55 = 0x01 := by decide

/-! ## Witnesses: a state and operands that meet the hypotheses of each statement, one for each clause -/

/-- A state whose next action is a. -/
def about (a : HostAction) (s : State) : State := { s with pending := [a] }

theorem witness_IllegalWordOnlyReports :
    let s := about (.write 0x50 0x30) { v5 with cmdArg := 0x0B }
    s.pending = .write 0x50 0x30 :: [] ∧ ∀ i, decode (commandWord 0x30 s.cmdArg) ≠ .ok i :=
  ⟨rfl, fun _ h => nomatch h⟩

theorem witness_StepRunsDecodedCommand_legal :
    let s := about (.write 0x50 0x30) { v5 with cmdArg := 0x0A }
    s.pending = .write 0x50 0x30 :: [] ∧ decode (0x30#8 ++ s.cmdArg) = .ok .readAddr := ⟨rfl, rfl⟩

theorem witness_StepRunsDecodedCommand_illegal :
    let s := about (.write 0x50 0x30) { v5 with cmdArg := 0x0B }
    s.pending = .write 0x50 0x30 :: [] ∧ decode (0x30#8 ++ s.cmdArg) = .error (.notAField 0x0B) := ⟨rfl, rfl⟩

/-- A V5 instance meets the invariant, and its step answers a next state. -/
theorem witness_StepKeepsInstanceInv :
    InstanceInv (about (.write 0x50 0x30) v5) ∧ ∃ t, step (about (.write 0x50 0x30) v5) = .next t :=
  ⟨⟨by decide, by decide, by decide, by decide, by decide, by decide, fun h => absurd rfl h⟩, _, rfl⟩

theorem witness_StepKeepsStatusInv :
    StatusInv (about (.write 0x50 0x30) { v5 with status := ⟨8, false, false⟩, errlog := 0x80 }) ∧
      ∃ t, step (about (.write 0x50 0x30) { v5 with status := ⟨8, false, false⟩, errlog := 0x80 }) = .next t :=
  ⟨⟨by decide, by decide, by decide⟩, _, rfl⟩

theorem witness_ErrlogIsSticky_command :
    ∃ t, exec .readSeq v3 = .next t ∧ Instr.readSeq ≠ .clear ∧ t.status.err = 7 := ⟨_, rfl, by decide, rfl⟩

theorem witness_ErrlogIsSticky_clear : ∃ t, exec .clear { v3 with errlog := 0xFF } = .next t := ⟨_, rfl⟩

theorem witness_ErrlogIsSticky_illegal :
    (∃ t, startCommand 0x02 v3 = .next t) ∧ ∀ i, decode (commandWord 0x02 v3.cmdArg) ≠ .ok i :=
  ⟨⟨_, rfl⟩, fun _ h => nomatch h⟩

theorem witness_ErrlogIsSticky_bus :
    (∃ t, serve .reset { v3 with errlog := 0xFF } = .next t) ∧ (∀ v, HostAction.reset ≠ .write 0x50 v) ∧
    (∃ t, serve (.write 0x53 0x00) { v3 with errlog := 0xFF } = .next t) ∧
      ∀ v, HostAction.write 0x53 0x00 ≠ .write 0x50 v :=
  ⟨⟨_, rfl⟩, fun _ h => (nomatch h), ⟨_, rfl⟩, fun _ h => (nomatch h)⟩

theorem witness_CommandsKeepInputsAndOperands : ∃ t, exec .decBm v5 = .next t := ⟨_, rfl⟩

theorem witness_CommandFootprint :
    (∃ t, exec .readAccx v5 = .next t) ∧ mayWrite .readAccx (.plain 15) = false ∧
      mayWrite .readAccx (locOf 0x60) = false := ⟨⟨_, rfl⟩, by decide, by decide⟩

theorem witness_DecU16Completes :
    ((operands 0xFFFF 0 0xFFFF true 0 1).opctrl.invEn = true ∧
      (operands 0xFFFF 0 0xFFFF true 0 1).opa = (operands 0xFFFF 0 0xFFFF true 0 1).opinv) ∧
    ¬((operands 0xFFFF 0 0xFFFF false 0 1).opctrl.invEn = true ∧
      (operands 0xFFFF 0 0xFFFF false 0 1).opa = (operands 0xFFFF 0 0xFFFF false 0 1).opinv) := by decide

theorem witness_DecS16Completes :
    ((operands 0x8000 0 0x8000 true 0 1).opctrl.invEn = true ∧
      (operands 0x8000 0 0x8000 true 0 1).opa = (operands 0x8000 0 0x8000 true 0 1).opinv) ∧
    ¬((operands 0x8000 0 0x8001 true 0 1).opctrl.invEn = true ∧
      (operands 0x8000 0 0x8001 true 0 1).opa = (operands 0x8000 0 0x8001 true 0 1).opinv) := by decide

theorem witness_DecBmCompletes :
    ((operands 0xFFFF 0x001F 31 true 0 1).opctrl.invEn = true ∧
      (operands 0xFFFF 0x001F 31 true 0 1).opa &&& 0x001F = (operands 0xFFFF 0x001F 31 true 0 1).opinv) ∧
    ¬((operands 0xFFFF 0x00FF 0x01FF true 0 1).opctrl.invEn = true ∧
      (operands 0xFFFF 0x00FF 0x01FF true 0 1).opa &&& 0x00FF = (operands 0xFFFF 0x00FF 0x01FF true 0 1).opinv) := by
  decide

theorem witness_SentinelTestedBeforeScaling :
    some (31#16) = some (0xFFFF#16 &&& 0x001F#16) ∧ some (31#16) ≠ some (0xFFFE#16 &&& 0x001F#16) := by decide

theorem witness_DecodeRoundTrip :
    (-50 : Int) ≠ 0 ∧ some (0x8000#16) ≠ some (0x7FFF#16 &&& 0xFFFF#16) ∧
      (decodeField 0x7FFF .signed 0xFFFF (some 0x8000) 0 (-50)).ovf = false := by decide

theorem witness_OnlyPrimitivesOverflow :
    ∃ t, exec .decU16 (operands 0xFFFF 0 0 false 0 0x7FFFFFFF) = .next t ∧ t.status.ovf = true := ⟨_, rfl, by decide⟩

theorem witness_SelectCompletes :
    (v3.plen.toNat = 14 ∧ v3.payload[0] = 0x03) ∧ (v5.plen.toNat = 24 ∧ v5.payload[0] = 0x05) ∧
    (c5.plen.toNat = 18 ∧ c5.payload[0] = 0xC5) ∧ (v8.plen.toNat = 24 ∧ v8.payload[0] = 0x08) := by decide

/-- Length 25 with the V5 tag matches no format (V-S-10). -/
theorem witness_SelectCompletes_none :
    let s := { v5 with plen := 25 }
    ¬(s.plen.toNat = 14 ∧ s.payload[0] = 0x03) ∧ ¬(s.plen.toNat = 24 ∧ s.payload[0] = 0x05) ∧
      ¬(s.plen.toNat = 18 ∧ s.payload[0] = 0xC5) ∧ ¬(s.plen.toNat = 24 ∧ s.payload[0] = 0x08) := by decide

theorem witness_ConstructPlainCompletes :
    (Instr.constructC5, 0xC5#8, 18) ∈
      [(Instr.constructV3, 0x03#8, 14), (Instr.constructV5, 0x05#8, 24), (Instr.constructC5, 0xC5#8, 18)] ∧
    (c5.plen.toNat = 18 ∧ c5.payload[0] = 0xC5) ∧
    ¬({ c5 with plen := 19 }.plen.toNat = 18 ∧ { c5 with plen := 19 }.payload[0] = 0xC5) := by decide

/-- Each combination of the two checks (V-C-7 to V-C-11). -/
theorem witness_ConstructEncryptedCompletes :
    (v8.plen.toNat = 24 ∧ v8.payload[0] = 0x08) ∧ (v8.devidLen.toNat = 8 ∧ v8.passLen.toNat = 16) ∧
    ¬({ v8 with plen := 23 }.plen.toNat = 24 ∧ v8.payload[0] = 0x08) ∧
    ¬({ v8 with passLen := 15 }.devidLen.toNat = 8 ∧ { v8 with passLen := 15 }.passLen.toNat = 16) ∧
    v8.cfg.checkOrder = .formatFirst ∧
    { v8 with cfg := ⟨.credentialsFirst, crc8Table, []⟩ }.cfg.checkOrder = .credentialsFirst := by decide

theorem witness_ConstructAgreesWithSelect :
    (Instr.constructC5, 0xC5#8) ∈
      [(Instr.constructV3, 0x03#8), (Instr.constructV5, 0x05#8), (Instr.constructC5, 0xC5#8)] ∧
    ∃ t u, exec .constructC5 c5 = .next t ∧ exec .select c5 = .next u ∧ u.fmt = 0xC5 :=
  ⟨by decide, _, _, rfl, rfl, rfl⟩

theorem witness_ConstructionDoesNotDecrypt :
    Instr.constructV8 ∈ Instr.select :: constructCommands ∧ ∃ t, exec .constructV8 v8 = .next t := ⟨by decide, _, rfl⟩

theorem witness_ReadWithoutInstance :
    { v5 with inst := ⟨false, 0⟩, fmt := 0 }.inst.constructed = false ∧ Instr.readSeq ∈ Instr.verify :: valueReads :=
  ⟨rfl, by decide⟩

theorem witness_ReadFieldNotInFormat :
    (v3.inst.constructed = true ∧ v3.fmt = 0x03 ∧ v3.fmt ≠ 0x08 ∧
      Instr.readSeq ∈ [Instr.readTxpwr, .readMove, .readSeq]) ∧
    (c5.inst.constructed = true ∧ (c5.fmt = 0xC5 ∨ c5.fmt = 0x08)) ∧
    (v8.inst.constructed = true ∧ (v8.fmt = 0xC5 ∨ v8.fmt = 0x08) ∧
      Instr.readAccz ∈ [Instr.readAccx, .readAccy, .readAccz]) := by decide

theorem witness_V3FieldsComplete : hasInstance 0x03 v3 := ⟨rfl, rfl⟩

/-- Fraction 99 is present, 100 is absent; the sign bit decides between the other two clauses. -/
theorem witness_V3TemperatureCompletes :
    hasInstance 0x03 v3Edge ∧ (v3Edge.payload[3].toNat = 99 ∧ v3Edge.payload[2].toNat = 127) ∧
    hasInstance 0x03 v3Absent ∧ v3Absent.payload[3].toNat = 100 ∧
    hasInstance 0x03 v3Negative ∧ (v3Negative.payload[3].toNat ≤ 99 ∧ 128 ≤ v3Negative.payload[2].toNat) :=
  ⟨⟨rfl, rfl⟩, by decide, ⟨rfl, rfl⟩, by decide, ⟨rfl, rfl⟩, by decide⟩

theorem witness_V5SensorFieldsComplete : hasInstance 0x05 v5Corner := ⟨rfl, rfl⟩

theorem witness_V5PowerAndCountersComplete : hasInstance 0x05 v5Absent := ⟨rfl, rfl⟩

theorem witness_C5FieldsComplete : hasInstance 0xC5 c5 := ⟨rfl, rfl⟩

theorem witness_AddressReadsComplete : hasInstance 0x05 v5 ∧ hasInstance 0x08 v8Corrupt ∧ hasInstance 0xC5 c5 :=
  ⟨⟨rfl, rfl⟩, ⟨rfl, rfl⟩, ⟨rfl, rfl⟩⟩

theorem witness_StageOneDerivesKey :
    hasInstance 0x08 v8 ∧ v8.inst.crypt = 0b00 ∧ ∃ t, exec .verify v8 = .next t := ⟨⟨rfl, rfl⟩, rfl, _, rfl⟩

/-- V-V8-1: the CRC matches PAYLOAD[17]. -/
theorem v8_crc_matches :
    crc8 v8.cfg.crcTable
      (decryptBlock v8.cfg.cipher (deriveKey v8.passwd v8.devid) (cipherBlock v8.payload)).toList = v8.payload[17] := by
  decide +kernel

/-- V-V8-3: it does not. -/
theorem v8Corrupt_crc_differs :
    crc8 v8Corrupt.cfg.crcTable
      (decryptBlock v8Corrupt.cfg.cipher (deriveKey v8Corrupt.passwd v8Corrupt.devid) (cipherBlock v8Corrupt.payload)).toList ≠
        v8Corrupt.payload[17] := by
  decide +kernel

theorem v8_verified : (ensurePlain v8).inst.crypt = 0b01 := by decide +kernel

theorem v8Corrupt_failed : (ensurePlain v8Corrupt).inst.crypt ≠ 0b01 := by decide +kernel

theorem witness_EnsurePlainRunsStagesOnce :
    (v8.inst.crypt = 0b00 ∧
      crc8 v8.cfg.crcTable (decryptBlock v8.cfg.cipher (deriveKey v8.passwd v8.devid) (cipherBlock v8.payload)).toList =
        v8.payload[17]) ∧
    (v8Corrupt.inst.crypt = 0b00 ∧
      crc8 v8Corrupt.cfg.crcTable
        (decryptBlock v8Corrupt.cfg.cipher (deriveKey v8Corrupt.passwd v8Corrupt.devid) (cipherBlock v8Corrupt.payload)).toList ≠
          v8Corrupt.payload[17]) ∧
    { v8 with inst := ⟨true, 0b10⟩ }.inst.crypt ≠ 0b00 :=
  ⟨⟨rfl, v8_crc_matches⟩, ⟨rfl, v8Corrupt_crc_differs⟩, by decide⟩

theorem witness_VerifyCompletes :
    State.reset.inst.constructed = false ∧ (v5.inst.constructed = true ∧ v5.fmt ≠ 0x08) ∧
    (hasInstance 0x08 v8 ∧ (ensurePlain v8).inst.crypt = 0b01) ∧
    (hasInstance 0x08 v8Corrupt ∧ (ensurePlain v8Corrupt).inst.crypt ≠ 0b01) :=
  ⟨rfl, by decide, ⟨⟨rfl, rfl⟩, v8_verified⟩, ⟨rfl, rfl⟩, v8Corrupt_failed⟩

theorem witness_V8FieldsComplete : ∃ t, hasInstance 0x08 v8 ∧ ensurePlain v8 = t ∧ t.inst.crypt = 0b01 :=
  ⟨_, ⟨rfl, rfl⟩, rfl, v8_verified⟩

theorem witness_V8FieldsGated :
    hasInstance 0x08 v8Corrupt ∧ (ensurePlain v8Corrupt).inst.crypt ≠ 0b01 ∧ Instr.readSeq ∈ plaintextReads :=
  ⟨⟨rfl, rfl⟩, v8Corrupt_failed, by decide⟩

theorem witness_VerifyTransparentToReads :
    hasInstance 0x08 v8 ∧ Instr.readSeq ∈ plaintextReads ∧ ∃ t, exec .verify v8 = .next t :=
  ⟨⟨rfl, rfl⟩, by decide, _, rfl⟩

theorem witness_CleartextAsymmetry :
    (hasInstance 0x08 v8Corrupt ∧ v8Corrupt.inst.crypt = 0b00 ∧
      crc8 v8Corrupt.cfg.crcTable
        (decryptBlock v8Corrupt.cfg.cipher (deriveKey v8Corrupt.passwd v8Corrupt.devid) (cipherBlock v8Corrupt.payload)).toList ≠
          v8Corrupt.payload[17]) ∧
    hasInstance 0x08 v8 ∧ ∀ j : Fin 6, v8.payload[j.val + 18] = v8Corrupt.payload[j.val + 18] :=
  ⟨⟨⟨rfl, rfl⟩, rfl, v8Corrupt_crc_differs⟩, ⟨rfl, rfl⟩, by decide⟩

theorem witness_DerivedKeyInjective :
    v8.passwd ≠ v8.passwd.set 15 0x3D ∧ v8.devid ≠ v8.devid.set 7 0x19 := by decide

theorem witness_C5AgreesWithV5 :
    hasInstance 0x05 v5 ∧ hasInstance 0xC5 c5 ∧ (∀ j : Fin 6, c5.payload[j.val + 1] = v5.payload[j.val + 1]) ∧
    (∀ j : Fin 11, c5.payload[j.val + 7] = v5.payload[j.val + 13]) ∧ Instr.readAddr ∈ Instr.readAddr :: plaintextReads ∧
    ∃ t v, exec .readAddr v5 = .next t ∧ exec .readAddr c5 = .next v :=
  ⟨⟨rfl, rfl⟩, ⟨rfl, rfl⟩, by decide, by decide, by decide, _, _, rfl, rfl⟩

theorem witness_AllSentinelPayloadIsAbsent :
    (hasInstance 0x05 v5Absent ∧ Instr.readSeq ∈ Instr.readAddr :: valueReads ∧
      v5Absent.payload = #v[0x05, 0x80, 0x00, 0xFF, 0xFF, 0xFF, 0xFF, 0x80, 0x00, 0x80, 0x00, 0x80, 0x00, 0xFF, 0xFF, 0xFF,
        0xFF, 0xFF, 0xFF, 0xFF, 0xFF, 0xFF, 0xFF, 0xFF]) ∧
    (hasInstance 0xC5 c5Absent ∧ Instr.readSeq ∈ Instr.readAddr :: plaintextReads ∧
      ∀ j : Fin 17, c5Absent.payload[j.val + 1] = if j.val = 0 then 0x80 else if j.val = 1 then 0x00 else 0xFF) :=
  ⟨⟨⟨rfl, rfl⟩, by decide, rfl⟩, ⟨rfl, rfl⟩, by decide, by decide⟩

theorem witness_EveryCommandIsIdempotent : ∃ t, exec .verify v8Corrupt = .next t := ⟨_, rfl⟩

theorem witness_InstanceEndsOnlyByItsRules :
    let s := about (.write 0x50 0x30) v5
    s.inst.constructed = true ∧ (∃ t, step s = .next t) ∧ (∀ rest, s.pending ≠ .reset :: rest) ∧
    (∀ a v rest, s.pending = .write a v :: rest → isInput (locOf a) = false) ∧
    (∀ op rest, s.pending = .write 0x50 op :: rest →
      ∀ i ∈ Instr.clear :: Instr.select :: constructCommands, decode (commandWord op s.cmdArg) ≠ .ok i) := by
  refine ⟨rfl, ⟨_, rfl⟩, fun _ h => (nomatch h), ?_, ?_⟩
  · intro a v rest h
    cases h
    decide
  · intro op rest h
    cases h
    intro i hi h
    change Except.ok Instr.readTemp = Except.ok i at h
    cases h
    revert hi
    decide

theorem witness_ErrorCodesByCommand :
    (∃ t, exec .readAddr v3 = .next t ∧ t.status.err = 7) ∧
    (∃ t, startCommand 0xFF v3 = .next t) ∧ ∀ i, decode (commandWord 0xFF v3.cmdArg) ≠ .ok i :=
  ⟨⟨_, rfl, rfl⟩, ⟨_, rfl⟩, fun _ h => nomatch h⟩

theorem witness_ResetSetsEveryRegister : (about .reset v8).pending = .reset :: [] := rfl

/-- The ends of the three input windows. -/
theorem witness_InputWriteDiscardsInstance :
    ∀ a ∈ [0x00#8, 0x1A#8, 0x20#8, 0x27#8, 0x30#8, 0x3F#8],
      (a.toNat < 0x1B ∨ (0x20 ≤ a.toNat ∧ a.toNat < 0x28) ∨ (0x30 ≤ a.toNat ∧ a.toNat < 0x40)) ∧
      (about (.write a 0x01) v5).pending = .write a 0x01 :: [] := by decide

theorem witness_OperandWriteOnlyStores :
    ∀ a ∈ [0x40#8, 0x46#8, 0x48#8, 0x4F#8, 0x51#8],
      ((0x40 ≤ a.toNat ∧ a.toNat < 0x50 ∧ a ≠ 0x47) ∨ a = 0x51) ∧
      (about (.write a 0xFF) v5).pending = .write a 0xFF :: [] := by decide

theorem witness_ReservedAndReadOnlyAddresses :
    (∀ a ∈ [0x1B#8, 0x1F#8, 0x28#8, 0x2F#8, 0x47#8, 0x57#8, 0x5E#8, 0x5F#8, 0x68#8, 0x7F#8, 0x90#8, 0xFF#8],
      (0x1B ≤ a.toNat ∧ a.toNat < 0x20) ∨ (0x28 ≤ a.toNat ∧ a.toNat < 0x30) ∨ a = 0x47 ∨ a = 0x57 ∨ a = 0x5E ∨ a = 0x5F ∨
        (0x68 ≤ a.toNat ∧ a.toNat < 0x80) ∨ 0x90 ≤ a.toNat) ∧
    (∀ a ∈ [0x1B#8, 0x2F#8, 0x47#8, 0x52#8, 0xFF#8],
      ((0x1B ≤ a.toNat ∧ a.toNat < 0x20) ∨ (0x28 ≤ a.toNat ∧ a.toNat < 0x30) ∨ a = 0x47 ∨ 0x52 ≤ a.toNat) ∧
      (about (.write a 0xFF) v5).pending = .write a 0xFF :: []) := by decide

theorem witness_HostReadHasNoSideEffect :
    (about (.read 0x58) v5).pending = .read 0x58 :: [] ∧ ∃ t, step (about (.read 0x58) v5) = .next t := ⟨rfl, _, rfl⟩

theorem witness_KeyIsUnobservable : ∃ t, step (about (.write 0x50 0x31) v8) = .next t := ⟨_, rfl⟩

/-- The empty payload and the full one. -/
theorem witness_LoadPayloadScriptLoads :
    ∀ bytes ∈ [[], List.replicate 24 0x05#8],
      bytes.length ≤ 24 ∧ { v5 with pending := loadPayload bytes }.pending = loadPayload bytes := by decide

/-- The edges of the KEY window. -/
theorem witness_RegisterMapReads :
    ∀ a ∈ [0x00#8, 0x6F#8, 0x80#8, 0xFF#8], a.toNat < 0x70 ∨ 0x80 ≤ a.toNat := by decide

end Sys2Proof.Tests
end

section
/-! PROOFS. What a command and a step do, in the two layers the invariants need: a command prepares a state and then completes
it once, normally or with an error (R226, R227); a host write to a register leaves the output registers alone. -/

namespace Sys2Proof.Machine

/-- The state a command hands to its completion. -/
inductive Prepared (i : Instr) (s : State) : State → Prop
  /-- Nothing was written before the completion. -/
  | unchanged : Prepared i s s
  /-- CLEAR (R216). -/
  | cleared : i = .clear → Prepared i s (clearCore s)
  /-- A construction that succeeds, after the discard of R120 (R122, R125, R127). -/
  | opened (f : Format) : matchesFormat f s = true → (f = .v8 → credentialLengthsOk s = true) →
      Prepared i s (openInstance (formatTag f) (discardInstance s))
  /-- A construction that fails (R120). -/
  | discarded : Prepared i s (discardInstance s)
  /-- READ.ADDR, also where it fails (R131, R167). -/
  | addressed (a : Vector Byte 6) : Prepared i s (setAddrOut a s)
  /-- The gate in front of a V8 plaintext field and of VERIFY (R194, R200). -/
  | gated : hasInstance 0x08 s → Prepared i s (ensurePlain s)

/-- t is u after one completion, normal or with an error (R226, R227). -/
def Completes (u t : State) : Prop :=
  (∃ r : Reading, r.AbsentIsZero ∧ t = finish r u) ∨ ∃ e, t = raiseError e u

theorem completes_finish {r : Reading} (hz : r.AbsentIsZero) (u : State) : Completes u (finish r u) := .inl ⟨r, hz, rfl⟩

theorem completes_raiseError (e : ErrCode) (u : State) : Completes u (raiseError e u) := .inr ⟨e, rfl⟩

/-- Every command prepares a state and completes it once. -/
theorem exec_completes {i : Instr} {s t : State} (h : exec i s = .next t) : ∃ u, Prepared i s u ∧ Completes u t := by
  rcases exec_shapes i s with ⟨r, hz, -, e⟩ | ⟨hi, e⟩ | ⟨f, -, hm, hc, e⟩ | ⟨x, -, e⟩ | ⟨a, -, -, e⟩ | ⟨x, -, -, e⟩ |
      ⟨x, -, -, e⟩ | ⟨r, hz, -, h8, -, e⟩ | ⟨-, h8, -, e⟩ <;> cases e.symm.trans h
  · exact ⟨_, .unchanged, completes_finish hz _⟩
  · exact ⟨_, .cleared hi, completes_finish noReading_absentIsZero _⟩
  · exact ⟨_, .opened f hm fun hf => (hc hf).2, completes_finish noReading_absentIsZero _⟩
  · exact ⟨_, .discarded, completes_raiseError _ _⟩
  · exact ⟨_, .addressed a, completes_finish (fun _ => ⟨rfl, rfl⟩) _⟩
  · exact ⟨_, .unchanged, completes_raiseError _ _⟩
  · exact ⟨_, .addressed _, completes_raiseError _ _⟩
  · exact ⟨_, .gated h8, completes_finish hz _⟩
  · exact ⟨_, .gated h8, completes_raiseError _ _⟩

/-- The registers StatusInv speaks of. -/
def statusRegs (s : State) : Status × Byte × Half × Wide := (s.status, s.errlog, s.raw, s.result)

/-- A store the host may make is not to STATUS, ERRLOG, RESULT or RAW (R51). -/
theorem statusRegs_poke {l : Loc} (h : accessOf l = .readWrite) (s : State) (v : Byte) :
    statusRegs (poke s l v) = statusRegs s := by
  cases l <;> first | rfl | exact Access.noConfusion h

theorem statusRegs_busWrite (s : State) (addr v : Byte) : statusRegs (busWrite s addr v) = statusRegs s := by
  rcases busWrite_cases s addr v with ⟨hw, -, e⟩ | ⟨hw, -, e⟩ | ⟨-, e⟩ <;> rw [e]
  · exact statusRegs_poke hw s v
  · exact statusRegs_poke hw s v

theorem errlog_busWrite (s : State) (addr v : Byte) : (busWrite s addr v).errlog = s.errlog :=
  congrArg (·.2.1) (statusRegs_busWrite s addr v)

end Sys2Proof.Machine
end

section
/-! PROOFS. Every step keeps the invariant of FMT, INST and the V8 cache (R29 to R33). -/

namespace Sys2Proof.Machine

/-- s with every register that InstanceInv does not speak of at its reset value. -/
def instanceRegs (s : State) : State :=
  { State.reset with
    payload := s.payload
    plen := s.plen
    devidLen := s.devidLen
    passLen := s.passLen
    devid := s.devid
    passwd := s.passwd
    key := s.key
    plain := s.plain
    fmt := s.fmt
    inst := s.inst
    crcCalc := s.crcCalc
    cfg := s.cfg }

theorem instanceInv_instanceRegs (s : State) : InstanceInv (instanceRegs s) ↔ InstanceInv s :=
  ⟨fun ⟨a, b, c, d, e, f, g⟩ => ⟨a, b, c, d, e, f, g⟩, fun ⟨a, b, c, d, e, f, g⟩ => ⟨a, b, c, d, e, f, g⟩⟩

/-- The frame of InstanceInv: it stays where its registers stay. -/
theorem InstanceInv.congr {s t : State} (h : InstanceInv s) (e : instanceRegs t = instanceRegs s) : InstanceInv t := by
  rw [← instanceInv_instanceRegs, e, instanceInv_instanceRegs]
  exact h

/-- With CONSTRUCTED = 0 there is nothing to keep (R120). -/
theorem instanceInv_of_noInstance {s : State} (hi : s.inst = ⟨false, cryptNotEvaluated⟩) (hf : s.fmt = 0x00) :
    InstanceInv s where
  constructed_iff := by simp [hi, hf]
  fmt_tag := .inl hf
  crypt_held := by simp [hi]
  crypt_only_v8 _ := by rw [hi]
  payload_matches h := absurd hf h
  credential_lengths h := by simp [hf] at h
  cache_current h := by simp [hi] at h

/-- After a successful construction the payload and the credentials are the ones it checked, and no stage has run
(R122, R125, R127). -/
theorem instanceInv_openInstance {f : Format} {s : State} (hm : matchesFormat f s = true)
    (hc : f = .v8 → credentialLengthsOk s = true) : InstanceInv (openInstance (formatTag f) (discardInstance s)) where
  constructed_iff := by cases f <;> simp [formatTag]
  fmt_tag := by cases f <;> simp [formatTag]
  crypt_held := by simp
  crypt_only_v8 _ := rfl
  payload_matches _ := by
    obtain ⟨hlen, htag⟩ := (matchesFormat_iff f s).mp hm
    refine ⟨htag, (byte_of_toNat hlen).trans ?_⟩
    cases f <;> rfl
  credential_lengths h := by
    have hf : f = .v8 := by cases f <;> first | rfl | cases h
    exact of_decide_eq_true (hc hf)
  cache_current h := absurd rfl h

/-- The three stages leave a cache that is current, with its verdict in CRYPT (R180, R190, R192). -/
theorem InstanceInv.stages {s : State} (h : InstanceInv s) (h8 : s.fmt = 0x08) :
    InstanceInv (stage3 (stage2 (stage1 s))) where
  constructed_iff := by simpa using h.constructed_iff
  fmt_tag := by simpa using h.fmt_tag
  crypt_held := by
    rw [stage3_inst]
    dsimp only
    split <;> decide
  crypt_only_v8 hne := absurd h8 (by simpa using hne)
  payload_matches := by simpa using h.payload_matches
  credential_lengths := by simpa using h.credential_lengths
  cache_current _ := by
    refine ⟨by simp, by simp, by simp, ?_⟩
    rw [stage3_inst, stage3_crcCalc, stage3_payload]
    dsimp only
    split
    case isTrue hcrc => exact iff_of_true rfl hcrc
    case isFalse hcrc => exact iff_of_false (by decide) hcrc

theorem InstanceInv.ensurePlain {s : State} (h : InstanceInv s) (h8 : s.fmt = 0x08) :
    InstanceInv (ensurePlain s) := by
  by_cases hn : s.inst.crypt = cryptNotEvaluated
  · rw [ensurePlain_of_notEvaluated hn]
    exact h.stages h8
  · rw [ensurePlain_of_ne hn]
    exact h

theorem Prepared.instanceInv {i : Instr} {s u : State} (hp : Prepared i s u) (h : InstanceInv s) : InstanceInv u := by
  cases hp with
  | unchanged => exact h
  | cleared => exact instanceInv_of_noInstance rfl rfl
  | opened f hm hc => exact instanceInv_openInstance hm hc
  | discarded => exact instanceInv_of_noInstance rfl rfl
  | addressed a => exact h.congr rfl
  | gated h8 => exact h.ensurePlain h8.2

theorem Completes.instanceInv {u t : State} (hc : Completes u t) (h : InstanceInv u) : InstanceInv t := by
  obtain ⟨r, -, rfl⟩ | ⟨e, rfl⟩ := hc
  · exact h.congr rfl
  · exact h.congr rfl

theorem exec_keeps_instanceInv {i : Instr} {s t : State} (h : InstanceInv s) (hx : exec i s = .next t) :
    InstanceInv t := by
  obtain ⟨u, hp, hc⟩ := exec_completes hx
  exact hc.instanceInv (hp.instanceInv h)

/-- A store the host may make outside the inputs is to an operand register, CMD or CMD_ARG (R51, R58). -/
theorem instanceRegs_poke {l : Loc} (hw : accessOf l = .readWrite) (hi : isInput l = false) (s : State) (v : Byte) :
    instanceRegs (poke s l v) = instanceRegs s := by
  cases l <;> first | rfl | exact Access.noConfusion hw | exact Bool.noConfusion hi

theorem InstanceInv.busWrite {s : State} (h : InstanceInv s) (addr v : Byte) : InstanceInv (busWrite s addr v) := by
  rcases busWrite_cases s addr v with ⟨-, -, e⟩ | ⟨hw, hi, e⟩ | ⟨-, e⟩ <;> rw [e]
  · exact instanceInv_of_noInstance rfl rfl
  · exact h.congr (instanceRegs_poke hw hi s v)
  · exact h

/-- Settles O8, by the cases of a step: a command prepares and completes, an input write and `rst` leave CONSTRUCTED = 0, and
every other action leaves the registers of the invariant alone. -/
theorem stepKeepsInstanceInv : Obligations.StepKeepsInstanceInv := by
  intro s t h hstep
  rcases step_cases hstep with ⟨-, rfl⟩ | ⟨addr, rest, -, rfl⟩ | ⟨rest, -, rfl⟩ | ⟨addr, v, rest, -, -, rfl⟩ |
      ⟨op, rest, i, -, -, hx⟩ | ⟨op, rest, e, -, -, rfl⟩
  · exact h.congr rfl
  · exact h.congr rfl
  · exact instanceInv_of_noInstance rfl rfl
  · refine InstanceInv.busWrite ?_ addr v
    exact h.congr rfl
  · refine exec_keeps_instanceInv ?_ hx
    exact h.congr rfl
  · exact h.congr rfl

end Sys2Proof.Machine
end

section
/-! PROOFS. Every step keeps the invariant of the status and output registers, and what it does to ERRLOG (R35 to R39, R225 to
R227). -/

namespace Sys2Proof.Machine

/-- The frame of StatusInv: it stays where its registers stay. -/
theorem StatusInv.congr {s t : State} (h : StatusInv s) (e : statusRegs t = statusRegs s) : StatusInv t := by
  simp only [statusRegs, Prod.mk.injEq] at e
  obtain ⟨hstatus, herrlog, hraw, hresult⟩ := e
  constructor
  · rw [hstatus]
    exact h.code_range
  · rw [hstatus, hraw, herrlog]
    exact h.error_outputs
  · rw [hstatus, hresult]
    exact h.absent_outputs

/-- A completion establishes the invariant, whatever the registers held before it (R226, R227). -/
theorem Completes.statusInv {u t : State} (h : Completes u t) : StatusInv t := by
  obtain ⟨r, hz, rfl⟩ | ⟨e, rfl⟩ := h
  · exact ⟨Nat.zero_le 8, fun hne => absurd rfl hne, hz⟩
  · refine ⟨?_, fun _ => ⟨rfl, rfl, errBit_getLsbD e u.errlog⟩, fun _ => ⟨rfl, rfl⟩⟩
    rw [raiseError_status, errField_toNat]
    exact (errNumber_range e).2

/-- Settles O9: a completion establishes the invariant and every other action leaves its registers alone or resets them. -/
theorem stepKeepsStatusInv : Obligations.StepKeepsStatusInv := by
  intro s t h hstep
  rcases step_cases hstep with ⟨-, rfl⟩ | ⟨addr, rest, -, rfl⟩ | ⟨rest, -, rfl⟩ | ⟨addr, v, rest, -, -, rfl⟩ |
      ⟨op, rest, i, -, -, hx⟩ | ⟨op, rest, e, -, -, rfl⟩
  · exact h.congr rfl
  · exact h.congr rfl
  · exact ⟨Nat.zero_le 8, fun hne => absurd rfl hne, fun _ => ⟨rfl, rfl⟩⟩
  · exact h.congr (statusRegs_busWrite _ addr v)
  · obtain ⟨u, -, hc⟩ := exec_completes hx
    exact hc.statusInv
  · exact (completes_raiseError _ _).statusInv

/-- Only CLEAR touches ERRLOG before the completion (R36). -/
theorem Prepared.errlog {i : Instr} {s u : State} (hp : Prepared i s u) (hi : i ≠ .clear) : u.errlog = s.errlog := by
  cases hp with
  | cleared h => exact absurd h hi
  | gated => exact ensurePlain_errlog s
  | unchanged | opened | discarded | addressed => rfl

/-- A completion sets the sticky bit of its code and no other (R36, R226, R227). -/
theorem Completes.errlog {u t : State} (h : Completes u t) :
    t.errlog = if t.status.err = 0 then u.errlog else u.errlog ||| (1#8 <<< (t.status.err.toNat - 1)) := by
  obtain ⟨r, -, rfl⟩ | ⟨e, rfl⟩ := h
  · rfl
  · rw [raiseError_status, errField_toNat]
    exact (if_neg (errField_ne_zero e)).symm

/-- An illegal word sets the bit of ILLEGAL_COMMAND, code 8 (R36, R232). -/
theorem startCommand_illegal_errlog {op : Byte} {s t : State} (h : startCommand op s = .next t)
    (hill : ∀ i, decode (commandWord op s.cmdArg) ≠ .ok i) : t.errlog = s.errlog ||| (1#8 <<< 7) := by
  cases hd : decode (commandWord op s.cmdArg) with
  | ok i => exact absurd hd (hill i)
  | error e =>
    cases (startCommand_illegal hd).symm.trans h
    rfl

/-- Of the actions that start no command, only `rst` changes ERRLOG (R36, R57, R260). -/
theorem serve_errlog {a : HostAction} {s t : State} (h : serve a s = .next t) (ha : ∀ v, a ≠ .write 0x50 v) :
    t.errlog = if a = .reset then 0 else s.errlog := by
  cases a with
  | read addr =>
    cases h
    rfl
  | reset =>
    cases h
    rfl
  | write addr v =>
    have hcmd : locOf addr ≠ .cmd := fun hl => ha v (by rw [(locOf_eq_cmd addr).mp hl])
    cases (busWriteAction_of_ne hcmd _).symm.trans h
    exact errlog_busWrite _ addr v

/-- Settles O11: what the preparation and the completion of a command leave in ERRLOG, then the actions that start none. -/
theorem errlogIsSticky : Obligations.ErrlogIsSticky := by
  refine ⟨fun i s t hx hi => ?_, fun s t hx => ?_, fun op s t => startCommand_illegal_errlog,
    fun a s t => serve_errlog, rfl⟩
  · obtain ⟨u, hp, hc⟩ := exec_completes hx
    rw [← hp.errlog hi]
    exact hc.errlog
  · cases hx
    rfl

end Sys2Proof.Machine
end

section
/-! PROOFS. KEY cannot be observed (R27, R57, R180): every operation of the machine takes states that differ in KEY only to states
that differ in KEY only. The property is closed under composition and branching, so it is proved once for each named
operation and put together along the definitions. -/

namespace Sys2Proof.Machine

/-- s with another content of KEY. -/
def setKey (k : Block) (s : State) : State := { s with key := k }

@[simp] theorem setKey_fmt (k : Block) (s : State) : (setKey k s).fmt = s.fmt := rfl
@[simp] theorem setKey_cfg (k : Block) (s : State) : (setKey k s).cfg = s.cfg := rfl

/-- From states that differ in KEY only, f gives states that differ in KEY only. -/
def KeyBlind (f : State → State) : Prop := ∀ k s, ∃ k', f (setKey k s) = setKey k' (f s)

/-- The same for an operation that answers an outcome. -/
def KeyBlindOutcome (f : State → StepOutcome) : Prop :=
  ∀ k s t, f s = .next t → ∃ k', f (setKey k s) = .next (setKey k' t)

/-- An operation that neither reads nor writes KEY. -/
theorem KeyBlind.of_comm {f : State → State} (h : ∀ k s, f (setKey k s) = setKey k (f s)) : KeyBlind f :=
  fun k s => ⟨k, h k s⟩

/-- An operation that writes KEY without reading it. -/
theorem KeyBlind.of_absorb {f : State → State} (h : ∀ k s, f (setKey k s) = f s) : KeyBlind f :=
  fun k s => ⟨(f s).key, h k s⟩

theorem KeyBlind.comp {f g : State → State} (hf : KeyBlind f) (hg : KeyBlind g) : KeyBlind fun s => f (g s) := by
  intro k s
  obtain ⟨k', hk'⟩ := hg k s
  dsimp only
  rw [hk']
  exact hf k' (g s)

theorem KeyBlind.ite {c : State → Prop} [DecidablePred c] {f g : State → State} (hc : ∀ k s, c (setKey k s) ↔ c s)
    (hf : KeyBlind f) (hg : KeyBlind g) : KeyBlind fun s => if c s then f s else g s := by
  intro k s
  simp only [hc]
  split
  · exact hf k s
  · exact hg k s

theorem KeyBlind.next {f : State → State} (hf : KeyBlind f) : KeyBlindOutcome fun s => .next (f s) := by
  intro k s t h
  cases h
  obtain ⟨k', hk'⟩ := hf k s
  exact ⟨k', congrArg Host.Outcome.next hk'⟩

/-! The named operations -/

theorem keyBlind_id : KeyBlind fun s => s := .of_comm fun _ _ => rfl

theorem keyBlind_finish {r : State → Reading} (hr : ∀ k s, r (setKey k s) = r s) : KeyBlind fun s => finish (r s) s :=
  .of_comm fun k s => by
    rw [hr]
    rfl

theorem keyBlind_noReading : KeyBlind (finish noReading) := keyBlind_finish fun _ _ => rfl

theorem keyBlind_raiseError (e : ErrCode) : KeyBlind (raiseError e) := .of_comm fun _ _ => rfl

/-- A check that does not read KEY, in front of an operation. -/
theorem keyBlind_check {p : State → Bool} (hp : ∀ k s, p (setKey k s) = p s) (e : ErrCode) {f : State → State}
    (hf : KeyBlind f) : KeyBlind fun s => if !p s then raiseError e s else f s :=
  .ite (fun k s => by rw [hp]) (keyBlind_raiseError e) hf

theorem keyBlind_discardInstance : KeyBlind discardInstance := .of_comm fun _ _ => rfl

theorem keyBlind_construct (f : Format) : KeyBlind (construct f) := .of_comm fun _ _ => rfl

theorem keyBlind_clearCore : KeyBlind clearCore := .of_absorb fun _ _ => rfl

theorem keyBlind_clearAddrOut (field : Field) : KeyBlind (clearAddrOut field) :=
  .ite (fun _ _ => Iff.rfl) (.of_comm fun _ _ => rfl) keyBlind_id

theorem keyBlind_readAddress {a : State → Vector Byte 6} (ha : ∀ k s, a (setKey k s) = a s) :
    KeyBlind fun s => readAddress (a s) s :=
  .of_comm fun k s => by
    rw [ha]
    rfl

/-- The next stage 1 writes KEY before stage 2 reads it (R180, R190). -/
theorem keyBlind_ensurePlain : KeyBlind ensurePlain :=
  .ite (fun _ _ => Iff.rfl) (.of_absorb fun _ _ => rfl) keyBlind_id

theorem keyBlind_plainGate {rule : State → State} (h : KeyBlind rule) : KeyBlind (plainGate rule) :=
  .comp (f := fun t => if isVerified t then rule t else raiseError .integrity t)
    (.ite (fun _ _ => Iff.rfl) h (keyBlind_raiseError _)) keyBlind_ensurePlain

/-! The commands -/

theorem keyBlind_selectFormat : KeyBlind selectFormat :=
  .ite (fun _ _ => Iff.rfl) (keyBlind_construct _) <|
    .ite (fun _ _ => Iff.rfl) (keyBlind_construct _) <|
      .ite (fun _ _ => Iff.rfl) (keyBlind_construct _) <|
        .ite (fun _ _ => Iff.rfl) (keyBlind_raiseError _) (keyBlind_raiseError _)

theorem keyBlind_constructPlain (f : Format) : KeyBlind (constructPlain f) :=
  .ite (fun _ _ => Iff.rfl) (keyBlind_construct f) (keyBlind_raiseError _)

theorem keyBlind_constructEncrypted : KeyBlind constructEncrypted := by
  intro k s
  unfold constructEncrypted
  simp only [setKey_cfg]
  cases s.cfg.checkOrder with
  | formatFirst =>
    exact keyBlind_check (p := matchesFormat .v8) (fun _ _ => rfl) _
      (keyBlind_check (p := credentialLengthsOk) (fun _ _ => rfl) _ (keyBlind_construct .v8)) k s
  | credentialsFirst =>
    exact keyBlind_check (p := credentialLengthsOk) (fun _ _ => rfl) _
      (keyBlind_check (p := matchesFormat .v8) (fun _ _ => rfl) _ (keyBlind_construct .v8)) k s

theorem keyBlind_layoutRule {field : Field} {f : Format} {rule : State → State} (h : layoutRule field f = some rule) :
    KeyBlind rule := by
  rcases layoutRule_cases h with ⟨-, -, r, rfl, -, hr⟩ | ⟨-, -, a, rfl, ha⟩ | ⟨-, -, r, rfl, -, hr⟩
  · exact keyBlind_finish fun k s => hr _ _ rfl
  · exact keyBlind_readAddress fun k s => ha _ _ rfl
  · exact keyBlind_plainGate (keyBlind_finish fun k s => hr _ _ rfl)

theorem keyBlind_readField (field : Field) : KeyBlind (readField field) := by
  refine .ite (fun _ _ => Iff.rfl) (.comp (keyBlind_raiseError _) (keyBlind_clearAddrOut field)) fun k s => ?_
  simp only [setKey_fmt]
  cases hr : (formatOfTag s.fmt).bind (layoutRule field) with
  | none => exact KeyBlind.comp (keyBlind_raiseError _) (keyBlind_clearAddrOut field) k s
  | some rule =>
    obtain ⟨f, -, hrule⟩ := Option.bind_eq_some_iff.mp hr
    exact keyBlind_layoutRule hrule k s

theorem keyBlind_verifyInstance : KeyBlind verifyInstance :=
  .ite (fun _ _ => Iff.rfl) (keyBlind_raiseError _) <|
    .ite (fun _ _ => Iff.rfl) (keyBlind_raiseError _) (keyBlind_plainGate keyBlind_noReading)

theorem keyBlind_exec : ∀ i, KeyBlindOutcome (exec i)
  | .nop => keyBlind_noReading.next
  | .clear => (keyBlind_noReading.comp keyBlind_clearCore).next
  | .decU16 | .decS16 | .decBm => (keyBlind_finish fun _ _ => rfl).next
  | .select => (keyBlind_selectFormat.comp keyBlind_discardInstance).next
  | .constructV3 | .constructV5 | .constructC5 => ((keyBlind_constructPlain _).comp keyBlind_discardInstance).next
  | .constructV8 => (keyBlind_constructEncrypted.comp keyBlind_discardInstance).next
  | .readTemp | .readHumid | .readPress | .readAccx | .readAccy | .readAccz => (keyBlind_readField _).next
  | .readBatt | .readTxpwr | .readMove | .readSeq | .readAddr => (keyBlind_readField _).next
  | .verify => keyBlind_verifyInstance.next

/-! The host's actions -/

theorem keyBlind_poke (l : Loc) (v : Byte) : KeyBlind fun s => poke s l v := by
  intro k s
  cases l <;> exact ⟨_, rfl⟩

/-- The KEY window reads 0x00 (R57). -/
theorem busRead_setKey (k : Block) (s : State) (addr : Byte) : busRead (setKey k s) addr = busRead s addr := by
  unfold busRead
  cases locOf addr <;> rfl

theorem keyBlind_busWrite (addr v : Byte) : KeyBlind fun s => busWrite s addr v := by
  unfold busWrite
  cases accessOf (locOf addr) with
  | readWrite => exact .ite (fun _ _ => Iff.rfl) (keyBlind_discardInstance.comp (keyBlind_poke _ v)) (keyBlind_poke _ v)
  | readOnly => exact keyBlind_id
  | noAccess => exact keyBlind_id

theorem keyBlind_startCommand (op : Byte) : KeyBlindOutcome (startCommand op) := by
  intro k s t h
  cases hd : decode (commandWord op s.cmdArg) with
  | ok i =>
    rw [startCommand_legal hd] at h
    rw [startCommand_legal (s := setKey k s) hd]
    exact keyBlind_exec i k _ t h
  | error e =>
    rw [startCommand_illegal hd] at h
    rw [startCommand_illegal (s := setKey k s) hd]
    exact (keyBlind_raiseError _).next k _ t h

theorem keyBlind_serve (a : HostAction) : KeyBlindOutcome (serve a) := by
  cases a with
  | read addr =>
    refine KeyBlind.next (.of_comm fun k s => ?_)
    rw [busRead_setKey]
    rfl
  | reset => exact KeyBlind.next (.of_absorb fun _ _ => rfl)
  | write addr v =>
    intro k s t h
    by_cases hc : locOf addr = .cmd
    · cases (locOf_eq_cmd addr).mp hc
      exact keyBlind_startCommand v k { s with response := .done } t h
    · simp only [serve, busWriteAction_of_ne hc] at h ⊢
      exact (keyBlind_busWrite addr v).next k { s with response := .done } t h

theorem keyBlind_step : KeyBlindOutcome step := by
  intro k s t h
  cases hp : s.pending with
  | nil =>
    rw [step_idle hp] at h
    rw [step_idle (s := setKey k s) hp]
    exact KeyBlind.next (f := fun s => { s with response := .idle }) (.of_comm fun _ _ => rfl) k s t h
  | cons a rest =>
    rw [step_serve hp] at h
    rw [step_serve (s := setKey k s) hp]
    exact keyBlind_serve a k { s with pending := rest } t h

/-- Settles O56: a step is blind to KEY, and so is a host read. -/
theorem keyIsUnobservable : Obligations.KeyIsUnobservable :=
  fun s t k h => ⟨keyBlind_step k s t h, busRead_setKey k s⟩

end Sys2Proof.Machine
end

section
/-! PROOFS. What every command leaves alone (R41, R60, R108, R216, R226, R227), and that every step answers a next state (R62,
R82, R266). -/

namespace Sys2Proof.Machine

/-- s with every register that some command's rule writes at its reset value. -/
def commandFrame (s : State) : State :=
  { State.reset with
    payload := s.payload
    plen := s.plen
    devidLen := s.devidLen
    passLen := s.passLen
    devid := s.devid
    passwd := s.passwd
    cmd := s.cmd
    cmdArg := s.cmdArg
    opa := s.opa
    opmask := s.opmask
    opinv := s.opinv
    opctrl := s.opctrl
    opoff := s.opoff
    opmul := s.opmul
    pending := s.pending
    response := s.response
    cfg := s.cfg }

/-- The V8 stages write KEY, PLAIN, CRC_CALC and CRYPT only (R180, R190, R192). -/
theorem commandFrame_ensurePlain (s : State) : commandFrame (ensurePlain s) = commandFrame s := by
  simp [commandFrame]

theorem Prepared.commandFrame {i : Instr} {s u : State} (hp : Prepared i s u) : commandFrame u = commandFrame s := by
  cases hp with
  | gated => exact commandFrame_ensurePlain s
  | unchanged | cleared | opened | discarded | addressed => rfl

theorem Completes.commandFrame {u t : State} (hc : Completes u t) : commandFrame t = commandFrame u := by
  obtain ⟨r, -, rfl⟩ | ⟨e, rfl⟩ := hc
  · rfl
  · rfl

theorem exec_commandFrame {i : Instr} {s t : State} (h : exec i s = .next t) : commandFrame t = commandFrame s := by
  obtain ⟨u, hp, hc⟩ := exec_completes h
  exact hc.commandFrame.trans hp.commandFrame

/-- Settles O12: the registers and own fields it names are those of the frame. -/
theorem commandsKeepInputsAndOperands : Obligations.CommandsKeepInputsAndOperands := by
  intro i s t h
  have hf := exec_commandFrame h
  simp only [commandFrame, State.mk.injEq] at hf
  simp only [hf, and_self]

/-- Every command has a next state: none refuses or faults. -/
theorem exec_answers (i : Instr) (s : State) : ∃ t, exec i s = .next t := by
  cases i <;> exact ⟨_, rfl⟩

theorem startCommand_answers (op : Byte) (s : State) : ∃ t, startCommand op s = .next t := by
  cases hd : decode (commandWord op s.cmdArg) with
  | ok i =>
    rw [startCommand_legal hd]
    exact exec_answers i _
  | error e => exact ⟨_, startCommand_illegal hd⟩

theorem serve_answers (a : HostAction) (s : State) : ∃ t, serve a s = .next t := by
  cases a with
  | read addr => exact ⟨_, rfl⟩
  | reset => exact ⟨_, rfl⟩
  | write addr v =>
    by_cases hc : locOf addr = .cmd
    · cases (locOf_eq_cmd addr).mp hc
      exact startCommand_answers v _
    · exact ⟨_, busWriteAction_of_ne hc _⟩

theorem step_answers (s : State) : ∃ t, step s = .next t := by
  cases hp : s.pending with
  | nil => exact ⟨_, step_idle hp⟩
  | cons a rest =>
    rw [step_serve hp]
    exact serve_answers a _

/-- The model's own fields: the pending actions, the bus's answer and the parameters (log entries 1 to 3). -/
def ownFields (s : State) : List HostAction × Response × Config := (s.pending, s.response, s.cfg)

theorem ownFields_poke (s : State) (l : Loc) (v : Byte) : ownFields (poke s l v) = ownFields s := by
  cases l <;> rfl

theorem ownFields_busWrite (s : State) (addr v : Byte) : ownFields (busWrite s addr v) = ownFields s := by
  rcases busWrite_cases s addr v with ⟨-, -, e⟩ | ⟨-, -, e⟩ | ⟨-, e⟩ <;> rw [e]
  · exact ownFields_poke s _ v
  · exact ownFields_poke s _ v

theorem ownFields_exec {i : Instr} {s t : State} (h : exec i s = .next t) : ownFields t = ownFields s := by
  have hf := congrArg ownFields (exec_commandFrame h)
  exact hf

/-- A step serves the first pending action and keeps the parameters. -/
theorem step_serves_one {s t : State} (h : step s = .next t) : t.pending = s.pending.tail ∧ t.cfg = s.cfg := by
  rcases step_cases h with ⟨hp, rfl⟩ | ⟨addr, rest, hp, rfl⟩ | ⟨rest, hp, rfl⟩ | ⟨addr, v, rest, -, hp, rfl⟩ |
      ⟨op, rest, i, hp, -, hx⟩ | ⟨op, rest, e, hp, -, rfl⟩ <;> rw [hp]
  · exact ⟨rfl, rfl⟩
  · exact ⟨rfl, rfl⟩
  · exact ⟨rfl, rfl⟩
  · have hown := ownFields_busWrite { s with pending := rest, response := .done } addr v
    exact ⟨congrArg (·.1) hown, congrArg (·.2.2) hown⟩
  · exact ⟨congrArg (·.1) (ownFields_exec hx), congrArg (·.2.2) (ownFields_exec hx)⟩
  · exact ⟨rfl, rfl⟩

/-- Settles O6: a step answers, and what it answers has one action fewer. -/
theorem everyStepCompletes : Obligations.EveryStepCompletes := by
  intro s
  obtain ⟨t, h⟩ := step_answers s
  exact ⟨t, h, step_serves_one h⟩

end Sys2Proof.Machine
end

section
/-! PROOFS. The register space as the host sees it: which addresses are inputs, operands, reserved or read-only (R51, R57 to R59),
and what a host read and a host write of each do. -/

namespace Sys2Proof.Machine

/-! The access of an address -/

/-- The input windows of R51. -/
theorem isInput_locOf (a : Byte) : isInput (locOf a) = true ↔
    a.toNat < 0x1B ∨ (0x20 ≤ a.toNat ∧ a.toNat < 0x28) ∨ (0x30 ≤ a.toNat ∧ a.toNat < 0x40) := by
  revert a
  decide

/-- The operand registers, CMD and CMD_ARG: what the host may write outside the input windows (R51). -/
theorem storesOnly_locOf (a : Byte) : (accessOf (locOf a) = .readWrite ∧ isInput (locOf a) = false) ↔
    (0x40 ≤ a.toNat ∧ a.toNat < 0x50 ∧ a ≠ 0x47) ∨ a = 0x50 ∨ a = 0x51 := by
  revert a
  decide

/-- The reserved addresses and the KEY window (R51, R57). -/
theorem noAccess_locOf (a : Byte) : accessOf (locOf a) = .noAccess ↔
    (0x1B ≤ a.toNat ∧ a.toNat < 0x20) ∨ (0x28 ≤ a.toNat ∧ a.toNat < 0x30) ∨ a = 0x47 ∨ a = 0x57 ∨ a = 0x5E ∨ a = 0x5F ∨
      (0x68 ≤ a.toNat ∧ a.toNat < 0x80) ∨ 0x90 ≤ a.toNat := by
  revert a
  decide

/-- The addresses the host cannot write (R51, R57). -/
theorem notWritable_locOf (a : Byte) : accessOf (locOf a) ≠ .readWrite ↔
    (0x1B ≤ a.toNat ∧ a.toNat < 0x20) ∨ (0x28 ≤ a.toNat ∧ a.toNat < 0x30) ∨ a = 0x47 ∨ 0x52 ≤ a.toNat := by
  revert a
  decide

/-- OPCTRL stands at one address (R51). -/
theorem locOf_eq_opctrl (a : Byte) : locOf a = .opctrl ↔ a = 0x46 := by
  revert a
  decide

/-! Host reads -/

theorem busRead_of_noAccess {a : Byte} (h : accessOf (locOf a) = .noAccess) (s : State) : busRead s a = 0x00 := by
  simp only [busRead, h]

/-- Outside the KEY window the host reads what the core reads (R9, R57; log entry 9). -/
theorem busRead_eq_peek {a : Byte} (h : ∀ i, locOf a ≠ .key i) (s : State) : busRead s a = peek s (locOf a) := by
  unfold busRead
  cases hl : locOf a with
  | key i => exact absurd hl (h i)
  | _ => rfl

theorem busRead_of_writable {a : Byte} (h : accessOf (locOf a) = .readWrite) (s : State) :
    busRead s a = peek s (locOf a) :=
  busRead_eq_peek (fun i hl => by rw [hl] at h; cases h) s

/-- The pending actions and the bus's answer are in no register. -/
theorem busRead_bus (s : State) (p : List HostAction) (r : Response) (a : Byte) :
    busRead { s with pending := p, response := r } a = busRead s a := rfl

theorem peek_bus (s : State) (p : List HostAction) (r : Response) (l : Loc) :
    peek { s with pending := p, response := r } l = peek s l := rfl

/-- A step that serves a host read (R59). -/
theorem step_read {s : State} {a : Byte} {rest : List HostAction} (h : s.pending = .read a :: rest) :
    step s = .next { s with pending := rest, response := .data (busRead s a) } := step_serve h

/-- Settles O54: the step changes only what is in no register. -/
theorem hostReadHasNoSideEffect : Obligations.HostReadHasNoSideEffect := by
  intro s a rest h
  refine ⟨step_read h, fun t ht b => ?_⟩
  cases (step_read h).symm.trans ht
  exact busRead_bus s rest _ b

/-! Host writes -/

/-- A step that serves a host write to any address but CMD's (R59). -/
theorem step_write {s : State} {a v : Byte} {rest : List HostAction} (ha : a ≠ 0x50)
    (h : s.pending = .write a v :: rest) :
    step s = .next (busWrite { s with pending := rest, response := .done } a v) :=
  (step_serve h).trans (busWriteAction_of_ne (mt (locOf_eq_cmd a).mp ha) _)

theorem accessOf_of_isInput {l : Loc} (h : isInput l = true) : accessOf l = .readWrite := by
  cases l <;> first | rfl | exact Bool.noConfusion h

theorem busWrite_input {a : Byte} (h : isInput (locOf a) = true) (s : State) (v : Byte) :
    busWrite s a v = discardInstance (poke s (locOf a) v) := by
  simp only [busWrite, accessOf_of_isInput h, h, if_true]

theorem busWrite_stores {a : Byte} (hw : accessOf (locOf a) = .readWrite) (hi : isInput (locOf a) = false) (s : State)
    (v : Byte) : busWrite s a v = poke s (locOf a) v := by
  simp only [busWrite, hw, hi, Bool.false_eq_true, if_false]

theorem busWrite_ignored {a : Byte} (h : accessOf (locOf a) ≠ .readWrite) (s : State) (v : Byte) :
    busWrite s a v = s := by
  rcases busWrite_cases s a v with ⟨hw, -, -⟩ | ⟨hw, -, -⟩ | ⟨-, e⟩
  · exact absurd hw h
  · exact absurd hw h
  · exact e

/-- A register byte other than FMT and INST, after an input write (R58). -/
theorem peek_busWrite_input {a : Byte} (h : isInput (locOf a) = true) (s : State) (v : Byte) {l : Loc} (hf : l ≠ .fmt)
    (hi : l ≠ .inst) : peek (busWrite s a v) l = peek (poke s (locOf a) v) l := by
  rw [busWrite_input h, peek_discardInstance _ hf hi]

/-- Settles O51: the write is a store followed by the discard of R58. -/
theorem inputWriteDiscardsInstance : Obligations.InputWriteDiscardsInstance := by
  intro s a v rest ha hp
  have hin := (isInput_locOf a).mpr ha
  have hw := accessOf_of_isInput hin
  have ne : ∀ {l}, isInput l = false → locOf a ≠ l := fun hl e => by rw [e, hl] at hin; cases hin
  have hcmd : a ≠ 0x50 := fun e => ne (l := .cmd) rfl ((locOf_eq_cmd a).mpr e)
  obtain ⟨hpend, hresp, hcfg⟩ : _ ∧ _ ∧ _ := by
    simpa only [ownFields, Prod.mk.injEq] using
      ownFields_busWrite { s with pending := rest, response := .done } a v
  refine ⟨_, step_write hcmd hp, ?_, ?_, ?_, fun l hl hi hf => ?_, hpend, hresp, hcfg⟩
  · rw [busRead_of_writable hw, peek_busWrite_input hin _ v (ne rfl) (ne rfl), peek_poke_self _ _ v hw, if_neg (ne rfl)]
  · rw [busWrite_input hin]
    rfl
  · rw [busWrite_input hin]
    rfl
  · rw [peek_busWrite_input hin _ v hf hi, peek_poke_ne _ v hl, peek_bus]

/-- Settles O52: the write is a store and nothing else. -/
theorem operandWriteOnlyStores : Obligations.OperandWriteOnlyStores := by
  intro s a v rest ha hp
  obtain ⟨hw, hi⟩ := (storesOnly_locOf a).mpr (ha.imp_right .inr)
  have hcmd : a ≠ 0x50 := by
    rintro rfl
    revert ha
    decide
  refine ⟨poke { s with pending := rest, response := .done } (locOf a) v, ?_, ?_, fun l hl => ?_, ?_⟩
  · rw [step_write hcmd hp, busWrite_stores hw hi]
  · rw [busRead_of_writable hw, peek_poke_self _ _ v hw]
    simp only [locOf_eq_opctrl]
  · rw [peek_poke_ne _ v hl, peek_bus]
  · simpa only [ownFields, Prod.mk.injEq] using ownFields_poke { s with pending := rest, response := .done } (locOf a) v

/-- Bits 7:1 of OPCTRL read 0 (R46). -/
theorem opCtrlByte_reserved (t : OpCtrl) : opCtrlByte t &&& 0xFE = 0 := by
  obtain ⟨invEn⟩ := t
  revert invEn
  decide

/-- Bits 7:6 of STATUS read 0 (R35). -/
theorem statusByte_reserved (t : Status) : statusByte t &&& 0xC0 = 0 := by
  obtain ⟨err, valid, ovf⟩ := t
  revert err valid ovf
  decide

/-- Bits 7:3 of INST read 0 (R30). -/
theorem instByte_reserved (t : Inst) : instByte t &&& 0xF8 = 0 := by
  obtain ⟨constructed, crypt⟩ := t
  revert constructed crypt
  decide

/-- Settles O53, from the access of the addresses and the constant bits of the three byte views. -/
theorem reservedAndReadOnlyAddresses : Obligations.ReservedAndReadOnlyAddresses := by
  refine ⟨fun s a ha => busRead_of_noAccess ((noAccess_locOf a).mpr ha) s,
    fun s => ⟨opCtrlByte_reserved s.opctrl, statusByte_reserved s.status, instByte_reserved s.inst⟩,
    fun s a v rest ha hp => ?_⟩
  have hw := (notWritable_locOf a).mpr ha
  have hcmd : a ≠ 0x50 := by
    rintro rfl
    exact hw rfl
  rw [step_write hcmd hp, busWrite_ignored hw]

end Sys2Proof.Machine
end

section
/-! PROOFS. Reads of whole registers: the register at each address (R51) and the byte order of the multi-byte ones (R9, R54). -/

namespace Sys2Proof.Machine

/-! Byte order -/

/-- A 16-bit register is its bytes, most significant first. -/
theorem half_of_bytes (v : Half) : byteOf v 8 ++ byteOf v 0 = v := commandWord_of_fields v

/-- A 32-bit register is its bytes, most significant first. -/
theorem wide_of_bytes (v : Wide) : byteOf v 24 ++ byteOf v 16 ++ byteOf v 8 ++ byteOf v 0 = v := by
  unfold byteOf
  rw [BitVec.extractLsb'_append_extractLsb'_eq_extractLsb' (by rfl),
    BitVec.extractLsb'_append_extractLsb'_eq_extractLsb' (by rfl),
    BitVec.extractLsb'_append_extractLsb'_eq_extractLsb' (by rfl)]
  exact BitVec.extractLsb'_eq_self

/-- Appending a low byte. -/
theorem append_byte_toNat {w : Nat} (v : BitVec w) (b : Byte) : (v ++ b).toNat = v.toNat * 256 + b.toNat := by
  rw [BitVec.toNat_append, ← Nat.shiftLeft_add_eq_or_of_lt b.isLt, Nat.shiftLeft_eq]

/-- A one-byte core read (R9). -/
theorem memRead_one (s : State) (a : Byte) : memRead s a 1 = (peek s (locOf a)).toNat := by
  simp [memRead]

/-- A core read joins the bytes at rising addresses, most significant first (R9). -/
theorem memRead_two (s : State) (a : Byte) :
    memRead s a 2 = (peek s (locOf a) ++ peek s (locOf (a + 1))).toNat := by
  rw [append_byte_toNat, ← memRead_one]
  rfl

theorem memRead_four (s : State) (a : Byte) :
    memRead s a 4 =
      (peek s (locOf a) ++ peek s (locOf (a + 1)) ++ peek s (locOf (a + 2)) ++ peek s (locOf (a + 3))).toNat := by
  rw [append_byte_toNat, append_byte_toNat, ← memRead_two]
  rfl

/-- The core's read of two bytes is the 16-bit register they join to (R9, R54). -/
theorem memRead_half {s : State} {a : Byte} {v : Half} (h : peek s (locOf a) ++ peek s (locOf (a + 1)) = v) :
    memRead s a 2 = v.toNat :=
  (memRead_two s a).trans (congrArg BitVec.toNat h)

theorem memRead_wide {s : State} {a : Byte} {v : Wide}
    (h : peek s (locOf a) ++ peek s (locOf (a + 1)) ++ peek s (locOf (a + 2)) ++ peek s (locOf (a + 3)) = v) :
    memRead s a 4 = v.toNat :=
  (memRead_four s a).trans (congrArg BitVec.toNat h)

/-- Settles O55: the bytes at each register's addresses are the register's bytes in order, for the host and for the core. -/
theorem hostRegistersAreBigEndian : Obligations.HostRegistersAreBigEndian :=
  fun s => ⟨half_of_bytes s.opa, half_of_bytes s.opmask, half_of_bytes s.opinv,
    wide_of_bytes s.opoff, wide_of_bytes s.opmul, wide_of_bytes s.result,
    half_of_bytes s.raw, half_of_bytes manufId,
    memRead_half (half_of_bytes s.opa), memRead_half (half_of_bytes s.opmask), memRead_half (half_of_bytes s.opinv),
    memRead_wide (wide_of_bytes s.opoff), memRead_wide (wide_of_bytes s.opmul), memRead_wide (wide_of_bytes s.result),
    memRead_half (half_of_bytes s.raw), memRead_half (v := manufId) (half_of_bytes manufId)⟩

/-! The windows of R51 -/

theorem locOf_payload : ∀ i : Fin 24, locOf (BitVec.ofNat 8 i.val) = .payload i := by decide
theorem locOf_devid : ∀ i : Fin 8, locOf (BitVec.ofNat 8 (0x20 + i.val)) = .devid i := by decide
theorem locOf_passwd : ∀ i : Fin 16, locOf (BitVec.ofNat 8 (0x30 + i.val)) = .passwd i := by decide
theorem locOf_addrOut : ∀ i : Fin 6, locOf (BitVec.ofNat 8 (0x60 + i.val)) = .addrOut i := by decide
theorem locOf_key : ∀ i : Fin 16, locOf (BitVec.ofNat 8 (0x70 + i.val)) = .key i := by decide
theorem locOf_plain : ∀ i : Fin 16, locOf (BitVec.ofNat 8 (0x80 + i.val)) = .plain i := by decide

/-- Only the addresses of the KEY window hold KEY. -/
theorem locOf_eq_key {a : Byte} {i : Fin 16} (h : locOf a = .key i) : a = BitVec.ofNat 8 (0x70 + i.val) :=
  locOf_injective (h.trans (locOf_key i).symm) (by rw [h]; nofun)

/-- What the host reads at the address of a register byte it may access. -/
theorem busRead_at {a : Byte} {l : Loc} (h : locOf a = l) (hl : accessOf l ≠ .noAccess) (s : State) :
    busRead s a = peek s l := by
  rw [← h]
  exact busRead_eq_peek (fun i hk => hl (by rw [← h, hk]; rfl)) s

/-- Settles O58: the windows by `busRead_at`, the single registers by evaluating the map, the core by what it shares with the
host outside the KEY window. -/
theorem registerMapReads : Obligations.RegisterMapReads := by
  intro s
  refine ⟨⟨fun i => busRead_at (locOf_payload i) nofun s, rfl, rfl, rfl, fun i => busRead_at (locOf_devid i) nofun s,
      fun i => busRead_at (locOf_passwd i) nofun s⟩, ⟨rfl, rfl, rfl⟩,
    ⟨rfl, rfl, rfl, rfl, rfl, fun i => busRead_at (locOf_addrOut i) nofun s,
      fun i => busRead_at (locOf_plain i) nofun s⟩, fun a ha => ?_, fun i => ?_⟩
  · have hk : ∀ i, locOf a ≠ .key i := fun i h => by
      have hval := congrArg BitVec.toNat (locOf_eq_key h)
      rw [BitVec.toNat_ofNat] at hval
      omega
    rw [memRead_one, busRead_eq_peek hk]
  · rw [memRead_one, locOf_key]
    rfl

end Sys2Proof.Machine
end

section
/-! PROOFS. The decoder and the encoder agree (R80, R83 to R88): the decoder's rows are said once, by the class of opcode, and
both directions and the list of legal words follow from that. -/

namespace Sys2Proof

/-- Every command's word decodes to it (R88). -/
@[simp] theorem decode_encode (i : Instr) : decode (encode i) = .ok i := by
  cases i <;> rfl

/-! The classes of opcodes (R84 to R86, R89) -/

theorem constructOp_not_argumentless : constructOp ∉ argumentlessOps := by decide

theorem readOp_not_argumentless : readOp ∉ argumentlessOps := by decide

/-- An argument-less opcode has one row, whose word has ARG = 0 (R84, R88). -/
theorem decodeFields_argumentless {op : Byte} (h : op ∈ argumentlessOps) :
    ∃ i, encode i = commandWord op 0x00 ∧ ∀ arg, decodeFields op arg = decodeArgumentless op arg i := by
  simp only [argumentlessOps, List.mem_cons, List.not_mem_nil, or_false] at h
  rcases h with rfl | rfl | rfl | rfl | rfl | rfl | rfl
  · exact ⟨.nop, rfl, fun _ => rfl⟩
  · exact ⟨.clear, rfl, fun _ => rfl⟩
  · exact ⟨.decU16, rfl, fun _ => rfl⟩
  · exact ⟨.decS16, rfl, fun _ => rfl⟩
  · exact ⟨.decBm, rfl, fun _ => rfl⟩
  · exact ⟨.select, rfl, fun _ => rfl⟩
  · exact ⟨.verify, rfl, fun _ => rfl⟩

/-- An opcode that is in no row (R83, R89). -/
theorem decodeFields_unassigned {op : Byte} (ha : op ∉ argumentlessOps) (hc : op ≠ constructOp) (hr : op ≠ readOp)
    (arg : Byte) : decodeFields op arg = .error (.unassignedOp op) := by
  simp only [argumentlessOps, List.mem_cons, List.not_mem_nil, or_false, not_or] at ha
  simp only [decodeFields, ha, hc, hr, if_false]

/-- What the decoder does, by the class of the opcode. -/
theorem decodeFields_cases (op : Byte) :
    (op ∈ argumentlessOps ∧ ∃ i, encode i = commandWord op 0x00 ∧
      ∀ arg, decodeFields op arg = decodeArgumentless op arg i) ∨
    (op = constructOp ∧ ∀ arg, decodeFields op arg = decodeConstruct arg) ∨
    (op = readOp ∧ ∀ arg, decodeFields op arg = decodeRead arg) ∨
    (op ∉ argumentlessOps ∧ op ≠ constructOp ∧ op ≠ readOp ∧
      ∀ arg, decodeFields op arg = .error (.unassignedOp op)) := by
  by_cases ha : op ∈ argumentlessOps
  · exact .inl ⟨ha, decodeFields_argumentless ha⟩
  by_cases hc : op = constructOp
  · subst hc
    exact .inr (.inl ⟨rfl, fun _ => rfl⟩)
  by_cases hr : op = readOp
  · subst hr
    exact .inr (.inr (.inl ⟨rfl, fun _ => rfl⟩))
  exact .inr (.inr (.inr ⟨ha, hc, hr, decodeFields_unassigned ha hc hr⟩))

/-! What each class accepts, and that a command it accepts has that word -/

/-- The format tags, the ARGs of CONSTRUCT (R85). -/
def formatTags : List Byte := [0x03, 0x05, 0xC5, 0x08]

/-- CONSTRUCT accepts the four tags (R85). -/
theorem decodeConstruct_accepts {arg : Byte} (h : arg ∈ formatTags) : ∃ i, decodeConstruct arg = .ok i := by
  simp only [formatTags, List.mem_cons, List.not_mem_nil, or_false] at h
  rcases h with rfl | rfl | rfl | rfl <;> exact ⟨_, rfl⟩

/-- CONSTRUCT accepts nothing else, and gives the command whose word it is (R85, R88). -/
theorem decodeConstruct_ok {arg : Byte} {i : Instr} (h : decodeConstruct arg = .ok i) :
    arg ∈ formatTags ∧ encode i = commandWord constructOp arg := by
  unfold decodeConstruct at h
  split_ifs at h <;> cases h <;> subst arg <;> decide

/-- READ accepts the field ids 0 to 10 (R86). -/
theorem decodeRead_accepts {arg : Byte} (h : arg.toNat ≤ 10) : ∃ i, decodeRead arg = .ok i := by
  unfold decodeRead
  interval_cases arg.toNat <;> exact ⟨_, rfl⟩

/-- READ accepts nothing else, and gives the command whose word it is (R86, R88). -/
theorem decodeRead_ok {arg : Byte} {i : Instr} (h : decodeRead arg = .ok i) :
    arg.toNat ≤ 10 ∧ encode i = commandWord readOp arg := by
  unfold decodeRead at h
  split at h <;> cases h <;> rename_i hn <;> rw [byte_of_toNat hn] <;> decide

/-! Round trip -/

/-- What decodes to a command is that command's word (R83, R88). -/
theorem encode_of_decodeFields {op arg : Byte} {i : Instr} (h : decodeFields op arg = .ok i) :
    encode i = commandWord op arg := by
  rcases decodeFields_cases op with ⟨-, j, hj, e⟩ | ⟨rfl, e⟩ | ⟨rfl, e⟩ | ⟨-, -, -, e⟩ <;> rw [e arg] at h
  · obtain ⟨rfl, rfl⟩ := decodeArgumentless_ok.mp h
    exact hj
  · exact (decodeConstruct_ok h).2
  · exact (decodeRead_ok h).2
  · cases h

theorem encode_of_decode {w : Half} {i : Instr} (h : decode w = .ok i) : encode i = w :=
  (encode_of_decodeFields h).trans (commandWord_of_fields w)

/-- Settles O2: both round trips, each for every word and every command. -/
theorem decodeEncodeExact : Obligations.DecodeEncodeExact :=
  fun _ i => ⟨encode_of_decode, fun h => h ▸ decode_encode i⟩

/-! The legal words -/

/-- The pairs {OP, ARG} of R84 to R86. -/
def HasRow (op arg : Byte) : Prop :=
  (op ∈ argumentlessOps ∧ arg = 0x00) ∨ (op = constructOp ∧ arg ∈ formatTags) ∨ (op = readOp ∧ arg.toNat ≤ 10)

/-- The decoder accepts the words of R84 to R86. -/
theorem decodeFields_accepts_iff (op arg : Byte) : (∃ i, decodeFields op arg = .ok i) ↔ HasRow op arg := by
  constructor
  · rintro ⟨i, h⟩
    rcases decodeFields_cases op with ⟨ha, j, -, e⟩ | ⟨hc, e⟩ | ⟨hr, e⟩ | ⟨-, -, -, e⟩ <;> rw [e arg] at h
    · exact .inl ⟨ha, (decodeArgumentless_ok.mp h).1⟩
    · exact .inr (.inl ⟨hc, (decodeConstruct_ok h).1⟩)
    · exact .inr (.inr ⟨hr, (decodeRead_ok h).1⟩)
    · cases h
  · rintro (⟨ha, hz⟩ | ⟨rfl, ht⟩ | ⟨rfl, hf⟩)
    · obtain ⟨j, -, e⟩ := decodeFields_argumentless ha
      exact ⟨j, (e arg).trans (decodeArgumentless_ok.mpr ⟨hz, rfl⟩)⟩
    · exact decodeConstruct_accepts ht
    · exact decodeRead_accepts hf

/-- The well-formedness check as a proposition: one conjunct for each class of illegal word (R89). -/
theorem wordLegal_eq_true (op arg : Byte) : wordLegal op arg = true ↔
    (op ∈ argumentlessOps ∨ op = constructOp ∨ op = readOp) ∧ (op ∈ argumentlessOps → arg = 0x00) ∧
      (op = constructOp → arg ∈ formatTags) ∧ (op = readOp → arg.toNat ≤ 10) := by
  simp only [wordLegal, opAssigned, argumentAbsent, argumentIsTag, argumentIsField, formatTags, Bool.and_eq_true,
    Bool.or_eq_true, Bool.not_eq_true', List.contains_eq_mem, beq_iff_eq, bne_iff_ne, decide_eq_true_eq,
    decide_eq_false_iff_not, ne_eq, imp_iff_not_or, and_assoc, or_assoc]

/-- The well-formedness check accepts the words of R84 to R86: no opcode is in two classes. -/
theorem wordLegal_iff (op arg : Byte) : wordLegal op arg = true ↔ HasRow op arg := by
  rw [wordLegal_eq_true]
  unfold HasRow
  constructor
  · rintro ⟨ha | hc | hr, hzero, htag, hfield⟩
    · exact .inl ⟨ha, hzero ha⟩
    · exact .inr (.inl ⟨hc, htag hc⟩)
    · exact .inr (.inr ⟨hr, hfield hr⟩)
  · rintro (⟨ha, hz⟩ | ⟨rfl, ht⟩ | ⟨rfl, hf⟩)
    · exact ⟨.inl ha, fun _ => hz, fun e => absurd (e ▸ ha) constructOp_not_argumentless,
        fun e => absurd (e ▸ ha) readOp_not_argumentless⟩
    · exact ⟨.inr (.inl rfl), fun h => absurd h constructOp_not_argumentless, fun _ => ht, nofun⟩
    · exact ⟨.inr (.inr rfl), fun h => absurd h readOp_not_argumentless, nofun, fun _ => hf⟩

/-- Settles O3: the decoder and the check accept the same pairs. -/
theorem legalWordsByOpcode : Obligations.LegalWordsByOpcode := by
  intro op arg
  rw [decode_commandWord, decodeFields_accepts_iff, wordLegal_iff]
  exact ⟨.rfl, .rfl⟩

/-- Settles O1: each word of the opcode map is the encoding of its row's command. -/
theorem opcodeMapDecodes : Obligations.OpcodeMapDecodes :=
  ⟨decode_encode .nop, decode_encode .clear, decode_encode .decU16, decode_encode .decS16, decode_encode .decBm,
    decode_encode .select, decode_encode .constructV3, decode_encode .constructV5, decode_encode .constructC5,
    decode_encode .constructV8, decode_encode .readTemp, decode_encode .readHumid, decode_encode .readPress,
    decode_encode .readAccx, decode_encode .readAccy, decode_encode .readAccz, decode_encode .readBatt,
    decode_encode .readTxpwr, decode_encode .readMove, decode_encode .readSeq, decode_encode .readAddr,
    decode_encode .verify⟩

end Sys2Proof
end

section
/-! PROOFS. A CMD write is one step (R82), and the script LOAD.PAYLOAD, one step for each of its writes (R92). -/

namespace Sys2Proof.Machine

/-- A step that serves a write of CMD starts the command (R82). -/
theorem step_startCommand {s : State} {op : Byte} {rest : List HostAction} (h : s.pending = .write 0x50 op :: rest) :
    step s = startCommand op { s with pending := rest, response := .done } := step_serve h

/-- Settles O5: the step starts the command, and the word is legal or not. -/
theorem stepRunsDecodedCommand : Obligations.StepRunsDecodedCommand := by
  intro s op rest h
  refine ⟨fun i hd => ?_, fun e hd => ?_, step_answers s⟩ <;> rw [step_startCommand h]
  · exact startCommand_legal (s := { s with pending := rest, response := .done }) hd
  · exact startCommand_illegal (s := { s with pending := rest, response := .done }) hd

/-- A step that serves a write into the PAYLOAD window (R58). -/
theorem step_write_payload {s : State} (i : Fin 24) {b : Byte} {rest : List HostAction}
    (h : s.pending = .write (BitVec.ofNat 8 i.val) b :: rest) :
    step s = .next (discardInstance
      { s with payload := s.payload.set i b, pending := rest, response := .done }) := by
  have hloc := locOf_payload i
  have hcmd : BitVec.ofNat 8 i.val ≠ 0x50 := fun e => by
    rw [(locOf_eq_cmd _).mpr e] at hloc
    cases hloc
  rw [step_write hcmd h, busWrite_input (by rw [hloc]; rfl), hloc]
  rfl

/-- A step that serves a write of PLEN (R58). -/
theorem step_write_plen {s : State} {v : Byte} {rest : List HostAction} (h : s.pending = .write 0x18 v :: rest) :
    step s = .next (discardInstance { s with plen := v, pending := rest, response := .done }) :=
  step_write (by decide) h

/-- PAYLOAD of t is that of s with `bytes` stored from byte k on. -/
def PayloadLoaded (k : Nat) (bytes : List Byte) (s t : State) : Prop :=
  ∀ i : Fin 24, t.payload[i] = if k ≤ i.val then bytes.getD (i.val - k) s.payload[i] else s.payload[i]

theorem PayloadLoaded.nil (k : Nat) (s : State) : PayloadLoaded k [] s s := fun i => by simp

/-- Storing the first byte and then the others after it. -/
theorem PayloadLoaded.cons {k : Fin 24} {b : Byte} {bytes : List Byte} {s u t : State}
    (hu : u.payload = s.payload.set k b) (ht : PayloadLoaded (k.val + 1) bytes u t) :
    PayloadLoaded k.val (b :: bytes) s t := by
  intro i
  rw [ht i, hu]
  rcases lt_trichotomy i.val k.val with h | h | h
  · have hne : k.val ≠ i.val := by omega
    simp [hne, show ¬k.val ≤ i.val by omega, show ¬k.val + 1 ≤ i.val by omega]
  · simp [h]
  · have hne : k.val ≠ i.val := by omega
    have hsub : i.val - k.val = i.val - (k.val + 1) + 1 := by omega
    simp [hne, hsub, show k.val ≤ i.val by omega, show k.val + 1 ≤ i.val by omega]

/-- Writes of consecutive PAYLOAD bytes take one step each and load them. -/
theorem run_writeBytes_payload (bytes : List Byte) (k : Nat) (s : State) (rest : List HostAction)
    (hk : k + bytes.length ≤ 24) (hp : s.pending = writeBytes k bytes ++ rest) :
    ∃ t, (∀ n, Host.Core.run Sys2Proof.core (bytes.length + n) s = Host.Core.run Sys2Proof.core n t) ∧
      t.pending = rest ∧ PayloadLoaded k bytes s t := by
  induction bytes generalizing k s with
  | nil => exact ⟨s, fun n => by rw [List.length_nil, Nat.zero_add], hp, .nil k s⟩
  | cons b bytes ih =>
    rw [List.length_cons] at hk
    obtain ⟨u, hstep, hpend, hpay⟩ : ∃ u, step s = .next u ∧ u.pending = writeBytes (k + 1) bytes ++ rest ∧
        u.payload = s.payload.set k b := ⟨_, step_write_payload ⟨k, by omega⟩ hp, rfl, rfl⟩
    obtain ⟨t, hrun, hrest, hload⟩ := ih (k + 1) u (by omega) hpend
    refine ⟨t, fun n => ?_, hrest, .cons (k := ⟨k, by omega⟩) hpay hload⟩
    calc Host.Core.run Sys2Proof.core (bytes.length + 1 + n) s
      _ = Host.Core.run Sys2Proof.core (bytes.length + n + 1) s := by rw [Nat.add_right_comm]
      _ = Host.Core.run Sys2Proof.core (bytes.length + n) u := core_run_succ hstep _
      _ = Host.Core.run Sys2Proof.core n t := hrun n

/-- Settles O57: the payload writes one by one, then the write of PLEN. -/
theorem loadPayloadScriptLoads : Obligations.LoadPayloadScriptLoads := by
  intro s bytes hlen hp
  rw [loadPayload, List.take_of_length_le hlen, Nat.min_eq_left (by omega)] at hp
  obtain ⟨t, hrun, hrest, hload⟩ := run_writeBytes_payload bytes 0 s _ (by omega) hp
  refine ⟨_, (hrun 1).trans (core_run_succ (step_write_plen hrest) 0), rfl, fun i h => ?_, fun i h => ?_, ?_, rfl, rfl⟩
  · simpa [h] using hload i
  · simpa [h] using hload i
  · exact Nat.mod_eq_of_lt (by omega)

end Sys2Proof.Machine
end

section
/-! PROOFS. The primitive commands (R105 to R107) and the decode function they share: when the sentinel test ends it (R100,
R101), and the completion of OPA decoded with the operand registers (R87), said once for the three commands. -/

namespace Sys2Proof.Machine

/-- A word of an argument-less opcode with a nonzero ARG is illegal (R84). -/
theorem decode_ne_ok_of_argument {op arg : Byte} (hop : op ∈ argumentlessOps) (harg : arg ≠ 0x00) (i : Instr) :
    decode (commandWord op arg) ≠ .ok i := by
  obtain ⟨j, -, e⟩ := decodeFields_argumentless hop
  rw [decode_commandWord, e]
  exact fun h => harg (decodeArgumentless_ok.mp h).1

/-- Settles O19: the sentinel test alone decides between no reading and a reading. -/
theorem sentinelTestedBeforeScaling : Obligations.SentinelTestedBeforeScaling := by
  intro p mask sgn inv off mul
  have present : inv ≠ some (p &&& mask) → (decodeField p sgn mask inv off mul).valid = true := fun h => by
    rw [decodeField_present sgn off mul h]
    rfl
  exact ⟨decodeField_absent sgn off mul, present, fun h => present (h ▸ (Option.some_ne_none _).symm)⟩

/-- The overflow test with its bounds written out (R103). -/
theorem overflows_eq_decide (v : Int) : overflows v = decide (v < -2147483648 ∨ 2147483647 < v) := rfl

/-- The two's-complement reading of a pattern, written out (R7). -/
theorem signedValue_signed (pat : Half) :
    signedValue .signed pat = if pat.toNat < 32768 then (pat.toNat : Int) else (pat.toNat : Int) - 65536 := by
  rw [signedValue, BitVec.toInt_eq_toNat_cond]
  split_ifs <;> omega

/-- A primitive command, completed: no reading where the pattern is the enabled sentinel, else the scaled value (R105 to R107). -/
theorem finish_primitive {sgn : Sign} {mask pat : Half} {value : Int} (s : State) (hp : s.opa &&& mask = pat)
    (hv : signedValue sgn pat = value) :
    let exact : Int := (value + s.opoff.toInt) * s.opmul.toInt
    (s.opctrl.invEn = true ∧ pat = s.opinv →
      finish (primitive sgn mask s) s = afterReading false 0 pat false s) ∧
    (¬(s.opctrl.invEn = true ∧ pat = s.opinv) →
      finish (primitive sgn mask s) s =
        afterReading true exact pat (decide (exact < -2147483648 ∨ 2147483647 < exact)) s) := by
  subst hp hv
  have sentinel_iff : s.sentinel = some (s.opa &&& mask) ↔ s.opctrl.invEn = true ∧ s.opa &&& mask = s.opinv := by
    rw [sentinel_eq_some, eq_comm (a := s.opinv)]
  refine ⟨fun h => ?_, fun h => ?_⟩
  · rw [primitive, decodeField_absent _ _ _ (sentinel_iff.mpr h), finish_absentReading]
  · rw [primitive, decodeField_present _ _ _ (mt sentinel_iff.mp h), finish_convert, overflows_eq_decide]

/-- Settles O16: the mask of ones keeps OPA. -/
theorem decU16Completes : Obligations.DecU16Completes := by
  refine ⟨rfl, fun arg => decode_ne_ok_of_argument (by decide), fun s => ?_⟩
  obtain ⟨absent, present⟩ := finish_primitive s (half_and_ones s.opa) (sgn := .unsigned) rfl
  exact ⟨fun h => congrArg Host.Outcome.next (absent h), fun h => congrArg Host.Outcome.next (present h)⟩

/-- Settles O17: the mask of ones keeps OPA, and the value is its two's-complement reading. -/
theorem decS16Completes : Obligations.DecS16Completes := by
  refine ⟨rfl, fun arg => decode_ne_ok_of_argument (by decide), fun s => ?_⟩
  obtain ⟨absent, present⟩ := finish_primitive s (half_and_ones s.opa) (signedValue_signed s.opa)
  exact ⟨fun h => congrArg Host.Outcome.next (absent h), fun h => congrArg Host.Outcome.next (present h)⟩

/-- Settles O18: the mask is OPMASK. -/
theorem decBmCompletes : Obligations.DecBmCompletes := by
  refine ⟨rfl, fun arg => decode_ne_ok_of_argument (by decide), fun s => ?_⟩
  obtain ⟨absent, present⟩ := finish_primitive s (mask := s.opmask) rfl (sgn := .unsigned) rfl
  exact ⟨fun h => congrArg Host.Outcome.next (absent h), fun h => congrArg Host.Outcome.next (present h)⟩

end Sys2Proof.Machine
end

section
/-! PROOFS. Only the primitive commands can overflow (R103): every field's scale keeps each 16-bit reading inside the s32
range. -/

namespace Sys2Proof.Machine

/-- A scale that keeps every reading of a 16-bit pattern, unsigned or signed, inside the s32 range (R102, R103). -/
abbrev ScaleFits (off mul : Int) : Prop :=
  0 ≤ mul ∧ -2 ^ 31 ≤ (-32768 + off) * mul ∧ (65535 + off) * mul ≤ 2 ^ 31 - 1

theorem signedValue_range (sgn : Sign) (pat : Half) : -32768 ≤ signedValue sgn pat ∧ signedValue sgn pat ≤ 65535 := by
  have := pat.isLt
  cases sgn with
  | unsigned => simp only [signedValue]; omega
  | signed => rw [signedValue_signed]; split_ifs <;> omega

/-- The scaled value is monotone in the pattern's value, so the two ends of the range decide. -/
theorem decodeField_ovf (p : Half) (sgn : Sign) (mask : Half) (inv : Option Half) {off mul : Int} (h : ScaleFits off mul) :
    (decodeField p sgn mask inv off mul).ovf = false := by
  by_cases hinv : inv = some (p &&& mask)
  · rw [decodeField_absent _ _ _ hinv]
    rfl
  · obtain ⟨hmul, hlow, hhigh⟩ := h
    obtain ⟨hmin, hmax⟩ := signedValue_range sgn (p &&& mask)
    rw [decodeField_present _ _ _ hinv]
    exact overflows_eq_false
      ⟨hlow.trans (mul_le_mul_of_nonneg_right (by omega) hmul), (mul_le_mul_of_nonneg_right (by omega) hmul).trans hhigh⟩

theorem finish_decodeField_ovf (p : Half) (sgn : Sign) (mask : Half) (inv : Option Half) {off mul : Int} (h : ScaleFits off mul)
    (s : State) : (finish (decodeField p sgn mask inv off mul) s).status.ovf = false :=
  decodeField_ovf p sgn mask inv h

theorem v3Temperature_ovf (b2 b3 : Byte) : (v3Temperature b2 b3).ovf = false := by
  unfold v3Temperature
  dsimp only
  split <;> rfl

theorem plainGate_ovf {rule : State → State} (h : ∀ s, (rule s).status.ovf = false) (s : State) :
    (plainGate rule s).status.ovf = false := by
  rcases plainGate_cases rule s with ⟨-, e⟩ | ⟨-, e⟩ <;> rw [e]
  · exact h _
  · rfl

/-- No layout rule of R130 overflows: READ.ADDR scales nothing, the V3 temperature has its own rule, and each other field's
offset and multiplier fit. -/
theorem layoutRule_ovf {field : Field} {f : Format} {rule : State → State} (h : layoutRule field f = some rule) (s : State) :
    (rule s).status.ovf = false := by
  cases f with
  | v3 =>
    cases field with
    | temp => cases h; exact v3Temperature_ovf _ _
    | _ => cases h <;> exact finish_decodeField_ovf _ _ _ _ (by decide) s
  | v5 | c5 =>
    cases field with
    | addr => cases h; rfl
    | _ => cases h <;> exact finish_decodeField_ovf _ _ _ _ (by decide) s
  | v8 =>
    cases field with
    | addr => cases h; rfl
    | _ => cases h <;> exact plainGate_ovf (fun t => finish_decodeField_ovf _ _ _ _ (by decide) t) s

theorem readField_ovf (field : Field) (s : State) : (readField field s).status.ovf = false := by
  rcases readField_cases field s with ⟨-, e⟩ | ⟨-, -, e⟩ | ⟨f, rule, -, hr, e⟩ <;> rw [e]
  · rfl
  · rfl
  · exact layoutRule_ovf hr s

theorem verifyInstance_ovf (s : State) : (verifyInstance s).status.ovf = false := by
  rcases verifyInstance_shapes s with ⟨_, -, e⟩ | ⟨-, -, e⟩ | ⟨-, -, e⟩ <;> rw [e] <;> rfl

theorem exec_construction_ovf {i : Instr} {s t : State} (hi : i ∈ Instr.select :: constructCommands)
    (h : exec i s = .next t) : t.status.ovf = false := by
  rcases exec_construction hi s with ⟨_, -, -, e⟩ | ⟨_, -, e⟩ <;> cases e.symm.trans h <;> rfl

/-- Settles O21: the other commands complete with no reading, with an error, or with a field whose scale fits. -/
theorem onlyPrimitivesOverflow : Obligations.OnlyPrimitivesOverflow := by
  intro i s t h hovf
  have no : ¬t.status.ovf = false := by simp [hovf]
  cases i with
  | decU16 => exact .inl rfl
  | decS16 => exact .inr (.inl rfl)
  | decBm => exact .inr (.inr rfl)
  | nop | clear =>
    cases h
    exact absurd rfl no
  | select | constructV3 | constructV5 | constructC5 | constructV8 =>
    exact absurd (exec_construction_ovf (by decide) h) no
  | readTemp | readHumid | readPress | readAccx | readAccy | readAccz | readBatt | readTxpwr | readMove | readSeq | readAddr =>
    cases h
    exact absurd (readField_ovf _ s) no
  | verify =>
    cases h
    exact absurd (verifyInstance_ovf s) no

end Sys2Proof.Machine
end

section
/-! PROOFS. Every command's rule is idempotent (R110, R122, R125, R127, R129, R193, R215, R216). A rule keeps the registers that
choose its branch, and each branch, run again, leaves what it left; so the property is proved for the branches and put
together along the definitions. -/

namespace Sys2Proof.Machine

/-- f keeps the view v of the state, and run again on the state it left it changes nothing more. -/
structure Repeatable {α : Type} (v : State → α) (f : State → State) : Prop where
  keeps : ∀ s, v (f s) = v s
  again : ∀ s, f (f s) = f s

section
variable {α : Type} {v : State → α}

/-- The view chooses the branch: where it holds one value, f is one repeatable operation. -/
theorem Repeatable.of_branch {f : State → State}
    (h : ∀ s, ∃ g, Repeatable v g ∧ ∀ t, v t = v s → f t = g t) : Repeatable v f := by
  refine ⟨fun s => ?_, fun s => ?_⟩ <;> obtain ⟨g, hg, e⟩ := h s
  · rw [e s rfl, hg.keeps]
  · rw [e s rfl, e _ (hg.keeps s), hg.again]

/-- A test of the view in front of two operations. -/
theorem Repeatable.ite {c : State → Prop} [DecidablePred c] {f g : State → State} (hc : ∀ s t, v t = v s → (c t ↔ c s))
    (hf : Repeatable v f) (hg : Repeatable v g) : Repeatable v fun s => if c s then f s else g s := by
  refine .of_branch fun s => ?_
  by_cases h : c s
  · exact ⟨f, hf, fun t ht => if_pos ((hc s t ht).mpr h)⟩
  · exact ⟨g, hg, fun t ht => if_neg (mt (hc s t ht).mp h)⟩

/-- A check of the view in front of an operation, as the rules write it. -/
theorem Repeatable.check {p : State → Bool} {f g : State → State} (hp : ∀ s t, v t = v s → p t = p s)
    (hf : Repeatable v f) (hg : Repeatable v g) : Repeatable v fun s => if !p s then f s else g s :=
  .ite (fun s t h => by rw [hp s t h]) hf hg

theorem Repeatable.next {f : State → State} (hf : Repeatable v f) {s t : State}
    (h : (.next (f s) : StepOutcome) = .next t) : (.next (f t) : StepOutcome) = .next t := by
  cases h
  rw [hf.again]

end

/-- What the checks of SELECT and CONSTRUCT read. -/
def constructionInputs (s : State) : Vector Byte 24 × Byte × Byte × Byte × Config :=
  (s.payload, s.plen, s.devidLen, s.passLen, s.cfg)

/-- What the dispatch of READ and VERIFY reads. -/
def instanceView (s : State) : Bool × Byte := (s.inst.constructed, s.fmt)

/-- A completion whose reading does not depend on what a completion writes (R226). -/
theorem repeatable_finish {r : State → Reading} (hr : ∀ q s, r (finish q s) = r s) :
    Repeatable instanceView fun s => finish (r s) s :=
  ⟨fun _ => rfl, fun s => by rw [hr, finish_finish]⟩

/-- CLEAR leaves the same state whatever it cleared before (R216). -/
theorem repeatable_clear : Repeatable constructionInputs fun s => finish noReading (clearCore s) :=
  ⟨fun _ => rfl, fun _ => rfl⟩

/-! Construction (R120 to R127) -/

theorem matchesFormat_congr {s t : State} (h : constructionInputs t = constructionInputs s) (f : Format) :
    matchesFormat f t = matchesFormat f s := by
  simp only [constructionInputs, Prod.mk.injEq] at h
  obtain ⟨hpayload, hplen, -⟩ := h
  simp only [matchesFormat, hpayload, hplen]

theorem credentialLengthsOk_congr {s t : State} (h : constructionInputs t = constructionInputs s) :
    credentialLengthsOk t = credentialLengthsOk s := by
  simp only [constructionInputs, Prod.mk.injEq] at h
  obtain ⟨-, -, hdevid, hpass, -⟩ := h
  simp only [credentialLengthsOk, hdevid, hpass]

theorem checkOrder_congr {s t : State} (h : constructionInputs t = constructionInputs s) :
    t.cfg.checkOrder = s.cfg.checkOrder :=
  congrArg (fun x => x.2.2.2.2.checkOrder) h

/-- A construction discards what the first one opened, and opens the same (R120, R122). -/
theorem repeatable_construct (f : Format) : Repeatable constructionInputs fun s => construct f (discardInstance s) :=
  ⟨fun _ => rfl, fun s => by simp only [construct_discard, finish]⟩

/-- A construction that fails again finds its sticky bit set (R36, R120, R227). -/
theorem repeatable_constructionError (e : ErrCode) :
    Repeatable constructionInputs fun s => raiseError e (discardInstance s) :=
  ⟨fun _ => rfl, fun s => raiseError_raiseError e (discardInstance s)⟩

theorem repeatable_matches (f : Format) {g h : State → State} (hg : Repeatable constructionInputs g)
    (hh : Repeatable constructionInputs h) :
    Repeatable constructionInputs fun s => if matchesFormat f (discardInstance s) then g s else h s :=
  .ite (fun s t e => by rw [matchesFormat_discard, matchesFormat_discard, matchesFormat_congr e]) hg hh

theorem repeatable_select : Repeatable constructionInputs fun s => selectFormat (discardInstance s) :=
  repeatable_matches .v3 (repeatable_construct .v3) <|
    repeatable_matches .v5 (repeatable_construct .v5) <|
      repeatable_matches .c5 (repeatable_construct .c5) <|
        repeatable_matches .v8 (repeatable_constructionError _) (repeatable_constructionError _)

theorem repeatable_constructPlain (f : Format) :
    Repeatable constructionInputs fun s => constructPlain f (discardInstance s) :=
  repeatable_matches f (repeatable_construct f) (repeatable_constructionError _)

theorem repeatable_constructEncrypted : Repeatable constructionInputs fun s => constructEncrypted (discardInstance s) := by
  have format {g h : State → State} := Repeatable.check (f := g) (g := h) (v := constructionInputs)
    (p := fun s => matchesFormat .v8 (discardInstance s)) fun _ _ e => matchesFormat_congr e .v8
  have credentials {g h : State → State} := Repeatable.check (f := g) (g := h) (v := constructionInputs)
    (p := fun s => credentialLengthsOk (discardInstance s)) fun _ _ e => credentialLengthsOk_congr e
  refine .of_branch fun s => ?_
  cases ho : s.cfg.checkOrder with
  | formatFirst =>
    refine ⟨_, format (repeatable_constructionError .formatMismatch)
      (credentials (repeatable_constructionError .badCredentials) (repeatable_construct .v8)), fun t ht => ?_⟩
    simp only [constructEncrypted, discardInstance_cfg, checkOrder_congr ht, ho]
  | credentialsFirst =>
    refine ⟨_, credentials (repeatable_constructionError .badCredentials)
      (format (repeatable_constructionError .formatMismatch) (repeatable_construct .v8)), fun t ht => ?_⟩
    simp only [constructEncrypted, discardInstance_cfg, checkOrder_congr ht, ho]

/-! READ and VERIFY (R129 to R131, R193, R194) -/

theorem constructed_congr {s t : State} (h : instanceView t = instanceView s) : t.inst.constructed = s.inst.constructed :=
  congrArg Prod.fst h

theorem fmt_congr {s t : State} (h : instanceView t = instanceView s) : t.fmt = s.fmt := congrArg Prod.snd h

theorem repeatable_raiseError (e : ErrCode) : Repeatable instanceView (raiseError e) :=
  ⟨fun _ => rfl, raiseError_raiseError e⟩

/-- A failed READ: the address it zeroes is zero the second time (R131). -/
theorem repeatable_readError (field : Field) (e : ErrCode) :
    Repeatable instanceView fun s => raiseError e (clearAddrOut field s) := by
  by_cases ha : field = .addr
  · subst ha
    exact ⟨fun _ => rfl, fun s => raiseError_raiseError e (setAddrOut zeroAddress s)⟩
  · simp only [clearAddrOut_of_ne ha]
    exact repeatable_raiseError e

/-- The gate of a block that is verified (R193, R200). -/
theorem plainGate_of_verified {rule : State → State} {s : State} (h : s.inst.crypt = cryptVerified) :
    plainGate rule s = rule s := by
  rw [plainGate, ensurePlain_of_ne (by rw [h]; decide), if_pos ((isVerified_iff s).mpr h)]

/-- The gate of a block that failed (R193, R200). -/
theorem plainGate_of_failed {rule : State → State} {s : State} (hran : s.inst.crypt ≠ cryptNotEvaluated)
    (h : s.inst.crypt ≠ cryptVerified) : plainGate rule s = raiseError .integrity s := by
  rw [plainGate, ensurePlain_of_ne hran, if_neg (mt (isVerified_iff s).mp h)]

/-- The second time the stages are not run, and PLAIN and the verdict are those of the first (R193). -/
theorem repeatable_plainGate {r : State → Reading} (hr : ∀ s t, s.plain = t.plain → r s = r t) :
    Repeatable instanceView (plainGate fun t => finish (r t) t) := by
  refine ⟨fun s => ?_, fun s => ?_⟩
  · rcases plainGate_cases (fun t => finish (r t) t) s with ⟨-, e⟩ | ⟨-, e⟩ <;> rw [e] <;> simp [instanceView]
  · rcases plainGate_cases (fun t => finish (r t) t) s with ⟨hv, e⟩ | ⟨hv, e⟩ <;> rw [e]
    · rw [plainGate_of_verified (s := finish _ _) hv, hr (finish _ _) (ensurePlain s) rfl, finish_finish]
    · rw [plainGate_of_failed (s := raiseError _ _) (ensurePlain_crypt_ne s) hv, raiseError_raiseError]

theorem repeatable_layoutRule {field : Field} {f : Format} {rule : State → State} (h : layoutRule field f = some rule) :
    Repeatable instanceView rule := by
  rcases layoutRule_cases h with ⟨-, -, r, rfl, -, hr⟩ | ⟨-, -, a, rfl, ha⟩ | ⟨-, -, r, rfl, -, hr⟩
  · exact repeatable_finish fun _ _ => hr _ _ rfl
  · exact ⟨fun _ => rfl, fun s => by simp only [ha (readAddress (a s) s) s rfl]; rfl⟩
  · exact repeatable_plainGate hr

theorem repeatable_readField (field : Field) : Repeatable instanceView (readField field) := by
  refine .check (fun _ _ => constructed_congr) (repeatable_readError field _) (.of_branch fun s => ?_)
  cases hr : (formatOfTag s.fmt).bind (layoutRule field) with
  | none => exact ⟨_, repeatable_readError field .notInFormat, fun t ht => by simp only [fmt_congr ht, hr]⟩
  | some rule =>
    obtain ⟨f, -, hrule⟩ := Option.bind_eq_some_iff.mp hr
    exact ⟨rule, repeatable_layoutRule hrule, fun t ht => by simp only [fmt_congr ht, hr]⟩

theorem repeatable_verifyInstance : Repeatable instanceView verifyInstance :=
  .check (fun _ _ => constructed_congr) (repeatable_raiseError _) <|
    .ite (fun _ _ h => by rw [fmt_congr h]) (repeatable_raiseError _) (repeatable_plainGate fun _ _ _ => rfl)

/-- Settles O47: each command's rule is a repeatable operation. -/
theorem everyCommandIsIdempotent : Obligations.EveryCommandIsIdempotent
  | .nop, _, _ => (repeatable_finish (r := fun _ => noReading) fun _ _ => rfl).next
  | .clear, _, _ => repeatable_clear.next
  | .decU16, _, _ => (repeatable_finish (r := primitive .unsigned 0xFFFF) fun _ _ => rfl).next
  | .decS16, _, _ => (repeatable_finish (r := primitive .signed 0xFFFF) fun _ _ => rfl).next
  | .decBm, _, _ => (repeatable_finish (r := fun s => primitive .unsigned s.opmask s) fun _ _ => rfl).next
  | .select, _, _ => repeatable_select.next
  | .constructV3, _, _ | .constructV5, _, _ | .constructC5, _, _ => (repeatable_constructPlain _).next
  | .constructV8, _, _ => repeatable_constructEncrypted.next
  | .readTemp, _, _ | .readHumid, _, _ | .readPress, _, _ | .readAccx, _, _ => (repeatable_readField _).next
  | .readAccy, _, _ | .readAccz, _, _ | .readBatt, _, _ | .readTxpwr, _, _ => (repeatable_readField _).next
  | .readMove, _, _ | .readSeq, _, _ | .readAddr, _, _ => (repeatable_readField _).next
  | .verify, _, _ => repeatable_verifyInstance.next

end Sys2Proof.Machine
end

section
/-! PROOFS. SELECT and CONSTRUCT (R122 to R128): what each does where a format matches the payload and where none does, and that
all of them end in one of two ways, with a new instance or without one. -/

namespace Sys2Proof.Machine

/-! How a construction ends (R120) -/

/-- A construction that succeeds, in the words of the statements. -/
theorem construct_discard_eq (f : Format) (s : State) :
    construct f (discardInstance s) = afterReading false 0 0 false (withInstance (formatTag f) s) := rfl

/-- A construction that fails, in the words of the statements. -/
theorem raiseError_discard_eq (e : ErrCode) (s : State) :
    raiseError e (discardInstance s) = afterError (errNumber e) (withoutInstance s) := rfl

/-- Settles O26: of the registers it names, both endings write CRYPT only. -/
theorem constructionDoesNotDecrypt : Obligations.ConstructionDoesNotDecrypt := by
  intro s t i hi h
  rcases exec_construction hi s with ⟨f, -, -, hx⟩ | ⟨e, -, hx⟩ <;> cases hx.symm.trans h
  · exact ⟨rfl, rfl, rfl, rfl⟩
  · exact ⟨rfl, rfl, rfl, rfl⟩

/-! SELECT (R122 to R124) -/

theorem exec_select_of_match {f : Format} {s : State} (h : matchesFormat f s = true) (h8 : f ≠ .v8) :
    exec .select s = .next (afterReading false 0 0 false (withInstance (formatTag f) s)) :=
  congrArg Host.Outcome.next ((selectFormat_of_match (s := discardInstance s) h h8).trans (construct_discard_eq f s))

/-- SELECT never constructs V8 (R124). -/
theorem exec_select_of_v8 {s : State} (h : matchesFormat .v8 s = true) :
    exec .select s = .next (afterError 2 (withoutInstance s)) := by
  refine congrArg Host.Outcome.next ?_
  rcases selectFormat_cases (discardInstance s) with ⟨f, h8, hm, -⟩ | ⟨-, e⟩ | ⟨hn, -⟩
  · exact absurd (matchesFormat_unique hm h) h8
  · exact e.trans (raiseError_discard_eq .needsCredentials s)
  · exact absurd h (Bool.eq_false_iff.mp (hn .v8))

theorem exec_select_of_no_match {s : State} (h : ∀ f, matchesFormat f s ≠ true) :
    exec .select s = .next (afterError 1 (withoutInstance s)) := by
  refine congrArg Host.Outcome.next ?_
  rcases selectFormat_cases (discardInstance s) with ⟨f, -, hm, -⟩ | ⟨hm, -⟩ | ⟨-, e⟩
  · exact absurd hm (h f)
  · exact absurd hm (h .v8)
  · exact e.trans (raiseError_discard_eq .noDecoder s)

/-- Settles O22: the length and the tag of a clause are the ones of a format that matches, and in the last none does. -/
theorem selectCompletes : Obligations.SelectCompletes := by
  refine ⟨rfl, fun s => ⟨fun h => ?_, fun h => ?_, fun h => ?_, fun h => ?_, fun h3 h5 hc h8 => ?_⟩⟩
  · exact exec_select_of_match ((matchesFormat_iff .v3 s).mpr h) (by decide)
  · exact exec_select_of_match ((matchesFormat_iff .v5 s).mpr h) (by decide)
  · exact exec_select_of_match ((matchesFormat_iff .c5 s).mpr h) (by decide)
  · exact exec_select_of_v8 ((matchesFormat_iff .v8 s).mpr h)
  · refine exec_select_of_no_match fun f hf => ?_
    have hlen := (matchesFormat_iff f s).mp hf
    cases f with
    | v3 => exact h3 hlen
    | v5 => exact h5 hlen
    | c5 => exact hc hlen
    | v8 => exact h8 hlen

/-! CONSTRUCT.V3, CONSTRUCT.V5 and CONSTRUCT.C5 (R125, R126) -/

/-- The non-encrypted format a CONSTRUCT command names (R125). -/
def plainFormatOf : Instr → Option Format
  | .constructV3 => some .v3
  | .constructV5 => some .v5
  | .constructC5 => some .c5
  | _ => none

theorem plainFormatOf_ne_v8 {i : Instr} {f : Format} (h : plainFormatOf i = some f) : f ≠ .v8 := by
  cases i <;> cases h <;> decide

theorem exec_constructPlain {i : Instr} {f : Format} (h : plainFormatOf i = some f) (s : State) :
    exec i s = .next (constructPlain f (discardInstance s)) := by
  cases i <;> cases h <;> rfl

theorem exec_constructPlain_of_match {i : Instr} {f : Format} {s : State} (h : plainFormatOf i = some f)
    (hm : matchesFormat f s = true) :
    exec i s = .next (afterReading false 0 0 false (withInstance (formatTag f) s)) := by
  rw [exec_constructPlain h, constructPlain, matchesFormat_discard, if_pos hm, construct_discard_eq]

theorem exec_constructPlain_of_mismatch {i : Instr} {f : Format} {s : State} (h : plainFormatOf i = some f)
    (hm : matchesFormat f s ≠ true) : exec i s = .next (afterError 4 (withoutInstance s)) := by
  rw [exec_constructPlain h, constructPlain, matchesFormat_discard, if_neg hm]
  exact congrArg Host.Outcome.next (raiseError_discard_eq .formatMismatch s)

/-- The two outcomes by the length and the tag of the format (R121, R125). -/
theorem exec_constructPlain_completes {i : Instr} {f : Format} (h : plainFormatOf i = some f) (s : State) :
    (s.plen.toNat = formatLen f ∧ s.payload[0] = formatTag f →
      exec i s = .next (afterReading false 0 0 false (withInstance (formatTag f) s))) ∧
    (¬(s.plen.toNat = formatLen f ∧ s.payload[0] = formatTag f) →
      exec i s = .next (afterError 4 (withoutInstance s))) := by
  rw [← matchesFormat_iff]
  exact ⟨exec_constructPlain_of_match h, exec_constructPlain_of_mismatch h⟩

/-- Settles O23: the three commands differ in the format they name only. -/
theorem constructPlainCompletes : Obligations.ConstructPlainCompletes := by
  refine ⟨rfl, rfl, rfl, fun s i tag len h => ?_⟩
  simp only [List.mem_cons, List.not_mem_nil, or_false, Prod.mk.injEq] at h
  obtain ⟨rfl, rfl, rfl⟩ | ⟨rfl, rfl, rfl⟩ | ⟨rfl, rfl, rfl⟩ := h
  · exact exec_constructPlain_completes (f := .v3) rfl s
  · exact exec_constructPlain_completes (f := .v5) rfl s
  · exact exec_constructPlain_completes (f := .c5) rfl s

theorem formatTag_injective {f g : Format} (h : formatTag f = formatTag g) : f = g :=
  Option.some.inj ((formatOfTag_eq_some.mpr rfl).symm.trans (formatOfTag_eq_some.mpr h))

theorem formatTag_ne_zero (f : Format) : formatTag f ≠ 0x00 := by cases f <;> decide

/-- SELECT leaves the tag of a format in FMT exactly where that format matches and is not V8 (R122, R124). -/
theorem fmt_select_iff {s u : State} (h : exec .select s = .next u) {f : Format} (h8 : f ≠ .v8) :
    u.fmt = formatTag f ↔ matchesFormat f s = true := by
  refine ⟨fun hu => ?_, fun hm => ?_⟩
  · rcases exec_construction (List.mem_cons_self) s with ⟨g, hg, -, hx⟩ | ⟨e, -, hx⟩ <;> cases hx.symm.trans h
    · exact formatTag_injective hu ▸ hg
    · exact absurd hu.symm (formatTag_ne_zero f)
  · cases (exec_select_of_match hm h8).symm.trans h
    rfl

/-- Both construct where the format matches, and CONSTRUCT nowhere else (R126). -/
theorem constructPlain_agrees_select {s t u : State} {i : Instr} {f : Format} (hf : plainFormatOf i = some f)
    (ht : exec i s = .next t) (hu : exec .select s = .next u) :
    (t.inst.constructed = true ↔ u.fmt = formatTag f) ∧ (u.fmt = formatTag f → u = t) := by
  have h8 := plainFormatOf_ne_v8 hf
  rw [fmt_select_iff hu h8]
  by_cases hm : matchesFormat f s = true
  · cases (exec_constructPlain_of_match hf hm).symm.trans ht
    cases (exec_select_of_match hm h8).symm.trans hu
    exact ⟨iff_of_true rfl hm, fun _ => rfl⟩
  · cases (exec_constructPlain_of_mismatch hf hm).symm.trans ht
    exact ⟨iff_of_false nofun hm, fun h => absurd h hm⟩

/-- Settles O25, for the format each of the three commands names. -/
theorem constructAgreesWithSelect : Obligations.ConstructAgreesWithSelect := by
  intro s t u i tag h ht hu
  simp only [List.mem_cons, List.not_mem_nil, or_false, Prod.mk.injEq] at h
  obtain ⟨rfl, rfl⟩ | ⟨rfl, rfl⟩ | ⟨rfl, rfl⟩ := h
  · exact constructPlain_agrees_select (f := .v3) rfl ht hu
  · exact constructPlain_agrees_select (f := .v5) rfl ht hu
  · exact constructPlain_agrees_select (f := .c5) rfl ht hu

/-! CONSTRUCT.V8 (R127) -/

theorem credentialLengthsOk_iff (s : State) :
    credentialLengthsOk s = true ↔ s.devidLen.toNat = 8 ∧ s.passLen.toNat = 16 := by
  rw [credentialLengthsOk, decide_eq_true_iff]
  exact ⟨fun ⟨hd, hp⟩ => ⟨congrArg BitVec.toNat hd, congrArg BitVec.toNat hp⟩,
    fun ⟨hd, hp⟩ => ⟨byte_of_toNat hd, byte_of_toNat hp⟩⟩

theorem exec_constructV8_of_match {s : State} (hm : matchesFormat .v8 s = true) (hc : credentialLengthsOk s = true) :
    exec .constructV8 s = .next (afterReading false 0 0 false (withInstance 0x08 s)) := by
  refine congrArg Host.Outcome.next ?_
  rcases constructEncrypted_cases (discardInstance s) with ⟨-, -, e⟩ | ⟨hm', -⟩ | ⟨hc', -⟩
  · exact e.trans (construct_discard_eq .v8 s)
  · exact absurd hm (Bool.eq_false_iff.mp hm')
  · exact absurd hc (Bool.eq_false_iff.mp hc')

/-- A wrong format is the answer where it is checked first or nothing else is wrong. -/
theorem exec_constructV8_of_mismatch {s : State} (hm : matchesFormat .v8 s ≠ true)
    (ho : s.cfg.checkOrder = .formatFirst ∨ credentialLengthsOk s = true) :
    exec .constructV8 s = .next (afterError 4 (withoutInstance s)) := by
  refine congrArg Host.Outcome.next ?_
  rcases constructEncrypted_cases (discardInstance s) with ⟨hm', -⟩ | ⟨-, -, e⟩ | ⟨hc', ho', -⟩
  · exact absurd hm' hm
  · exact e.trans (raiseError_discard_eq .formatMismatch s)
  · rcases ho with ho | hc
    · rcases ho' with ho' | hm'
      · cases ho.symm.trans ho'
      · exact absurd hm' hm
    · exact absurd hc (Bool.eq_false_iff.mp hc')

/-- Wrong lengths are the answer where they are checked first or nothing else is wrong. -/
theorem exec_constructV8_of_badLengths {s : State} (hc : credentialLengthsOk s ≠ true)
    (ho : s.cfg.checkOrder = .credentialsFirst ∨ matchesFormat .v8 s = true) :
    exec .constructV8 s = .next (afterError 3 (withoutInstance s)) := by
  refine congrArg Host.Outcome.next ?_
  rcases constructEncrypted_cases (discardInstance s) with ⟨-, hc', -⟩ | ⟨hm', ho', -⟩ | ⟨-, -, e⟩
  · exact absurd hc' hc
  · rcases ho with ho | hm
    · rcases ho' with ho' | hc'
      · cases ho.symm.trans ho'
      · exact absurd hc' hc
    · exact absurd hm (Bool.eq_false_iff.mp hm')
  · exact e.trans (raiseError_discard_eq .badCredentials s)

/-- Settles O24: the five clauses are the four answers of the two checks, the last one under both orders. -/
theorem constructEncryptedCompletes : Obligations.ConstructEncryptedCompletes := by
  refine ⟨rfl, fun s => ?_⟩
  have hv8 : _ ↔ s.plen.toNat = 24 ∧ s.payload[0] = 0x08 := matchesFormat_iff .v8 s
  simp only [← hv8, ← credentialLengthsOk_iff s]
  exact ⟨exec_constructV8_of_match,
    fun hm hc => exec_constructV8_of_mismatch hm (.inr hc),
    fun hm hc => exec_constructV8_of_badLengths hc (.inr hm),
    fun hm _ ho => exec_constructV8_of_mismatch hm (.inl ho),
    fun _ hc ho => exec_constructV8_of_badLengths hc (.inl ho)⟩

end Sys2Proof.Machine
end

section
/-! PROOFS. An instance ends only by its rules (R129): every other command and every other host action keeps the instance, its
format and its inputs. -/

namespace Sys2Proof.Machine

/-- CONSTRUCTED, FMT and the input registers: the instance and what it was made from (R58, R129). -/
def heldInstance (s : State) :
    Bool × Byte × Vector Byte 24 × Byte × Vector Byte 8 × Byte × Block × Byte :=
  (s.inst.constructed, s.fmt, s.payload, s.plen, s.devid, s.devidLen, s.passwd, s.passLen)

/-- A command that neither constructs nor clears keeps CONSTRUCTED and FMT (R129). -/
theorem instanceView_exec {i : Instr} {s t : State} (hi : i ∉ Instr.clear :: Instr.select :: constructCommands)
    (h : exec i s = .next t) : instanceView t = instanceView s := by
  cases i with
  | nop | decU16 | decS16 | decBm =>
    cases h
    rfl
  | readTemp | readHumid | readPress | readAccx | readAccy | readAccz | readBatt | readTxpwr | readMove | readSeq | readAddr =>
    cases h
    exact (repeatable_readField _).keeps s
  | verify =>
    cases h
    exact repeatable_verifyInstance.keeps s
  | clear | select | constructV3 | constructV5 | constructC5 | constructV8 => exact absurd (by decide) hi

theorem heldInstance_exec {i : Instr} {s t : State} (hi : i ∉ Instr.clear :: Instr.select :: constructCommands)
    (h : exec i s = .next t) : heldInstance t = heldInstance s := by
  have hview := instanceView_exec hi h
  obtain ⟨⟨hpayload, hplen, hdevid, hdevidLen, hpasswd, hpassLen⟩, -, -⟩ := commandsKeepInputsAndOperands i s t h
  simp only [heldInstance, constructed_congr hview, fmt_congr hview, hpayload, hplen, hdevid, hdevidLen, hpasswd, hpassLen]

/-- A host write outside the input registers (R57 to R59). -/
theorem heldInstance_busWrite {addr : Byte} (hi : isInput (locOf addr) = false) (s : State) (v : Byte) :
    heldInstance (busWrite s addr v) = heldInstance s := by
  rcases busWrite_cases s addr v with ⟨-, hi', -⟩ | ⟨hw, -, e⟩ | ⟨-, e⟩
  · cases hi.symm.trans hi'
  · have hregs := congrArg heldInstance (instanceRegs_poke hw hi s v)
    rw [e]
    exact hregs
  · rw [e]

/-- Settles O48, by the cases of a step: `rst`, an input write and the commands that end an instance are excluded, and the
others leave the instance and its inputs alone. -/
theorem instanceEndsOnlyByItsRules : Obligations.InstanceEndsOnlyByItsRules := by
  intro s t hs hstep hreset hwrite hcommand
  have held : heldInstance t = heldInstance s := by
    rcases step_cases hstep with ⟨-, rfl⟩ | ⟨addr, rest, -, rfl⟩ | ⟨rest, hp, -⟩ | ⟨addr, v, rest, -, hp, rfl⟩ |
        ⟨op, rest, i, hp, hd, hx⟩ | ⟨op, rest, e, -, -, rfl⟩
    · rfl
    · rfl
    · exact absurd hp (hreset rest)
    · exact heldInstance_busWrite (hwrite addr v rest hp) { s with pending := rest, response := .done } v
    · have hkept := heldInstance_exec (fun hi => hcommand op rest hp i hi hd) hx
      exact hkept
    · rfl
  simp only [heldInstance, Prod.mk.injEq, hs] at held
  exact held

end Sys2Proof.Machine
end

section
/-! PROOFS. A READ as the layout rule of its field (R131), the fields without a sentinel (R100, R108), and the V3 layout (R141 to
R147). -/

namespace Sys2Proof.Machine

/-- A READ of a field the instance's format has is the layout rule (R130, R131). -/
theorem exec_read_of_rule {i : Instr} {field : Field} {f : Format} {rule : State → State} {s : State}
    (hi : fieldOf i = some field) (h : hasInstance (formatTag f) s) (hr : layoutRule field f = some rule) :
    exec i s = .next (rule s) := by
  rw [exec_read hi, readField_of_rule h hr]

/-- A scale that fits keeps every scaled pattern inside the s32 range (R103). -/
theorem overflows_scaled {off mul : Int} (fits : ScaleFits off mul) (sgn : Sign) (pat : Half) :
    overflows ((signedValue sgn pat + off) * mul) = false := by
  have hovf := decodeField_ovf pat sgn 0xFFFF#16 none fits
  rw [decodeField_present _ _ _ (Option.some_ne_none _).symm, half_and_ones] at hovf
  exact hovf

/-- A byte promoted with a zero high byte keeps its value (R55). -/
theorem promoted_toNat (b : Byte) : BitVec.toNat (w := 16) (0#8 ++ b) = b.toNat := by
  rw [half_append_toNat, BitVec.toNat_zero, Nat.zero_mul, Nat.zero_add]

/-! The fields without a sentinel, completed: always a reading of the whole window (R108) -/

section
variable {n i : Nat} {off mul : Int}

theorem finish_fieldU16_none (b : Vector Byte n) (h : i + 1 < n) (fits : ScaleFits off mul) (s : State) :
    finish (fieldU16 b i off mul none h) s =
      afterReading true (((b[i] ++ b[i + 1]).toNat + off) * mul) (b[i] ++ b[i + 1]) false s :=
  finish_decodeField_none s (half_and_ones _) rfl (overflows_scaled fits .unsigned _)

theorem finish_fieldS16_none (b : Vector Byte n) (h : i + 1 < n) (fits : ScaleFits off mul) (s : State) :
    finish (fieldS16 b i off mul none h) s =
      afterReading true (((b[i] ++ b[i + 1]).toInt + off) * mul) (b[i] ++ b[i + 1]) false s :=
  finish_decodeField_none s (half_and_ones _) rfl (overflows_scaled fits .signed _)

theorem finish_fieldU8_none (b : Vector Byte n) (h : i < n) (fits : ScaleFits off mul) (s : State) :
    finish (fieldU8 b i off mul none h) s = afterReading true ((b[i].toNat + off) * mul) (0#8 ++ b[i]) false s := by
  rw [← promoted_toNat b[i]]
  exact finish_decodeField_none s (half_and_ones _) rfl (overflows_scaled fits .unsigned _)

end

/-- Settles O29: no rule has a sentinel and every scale fits, so each leaves the scaled value of its own bytes. -/
theorem v3FieldsComplete : Obligations.V3FieldsComplete := by
  refine ⟨rfl, rfl, rfl, rfl, rfl, rfl, fun s h => ⟨?humid, ?press, ?accx, ?accy, ?accz, ?batt⟩⟩
  case humid => rw [exec_read_of_rule (f := .v3) rfl h rfl, v3Humid, finish_fieldU8_none _ _ (by decide), add_zero]
  case press => rw [exec_read_of_rule (f := .v3) rfl h rfl, v3Press, finish_fieldU16_none _ _ (by decide)]
  case accx => rw [exec_read_of_rule (f := .v3) rfl h rfl, v3Accx, finish_fieldS16_none _ _ (by decide), add_zero]
  case accy => rw [exec_read_of_rule (f := .v3) rfl h rfl, v3Accy, finish_fieldS16_none _ _ (by decide), add_zero]
  case accz => rw [exec_read_of_rule (f := .v3) rfl h rfl, v3Accz, finish_fieldS16_none _ _ (by decide), add_zero]
  case batt => rw [exec_read_of_rule (f := .v3) rfl h rfl, v3Batt, finish_fieldU16_none _ _ (by decide), add_zero]

/-! The V3 temperature (R142) -/

/-- Bits 6:0 of a byte, the whole degrees (R142). -/
theorem byte_low7_toNat (b : Byte) : (b.extractLsb' 0 7).toNat = b.toNat % 128 := by
  simp [BitVec.extractLsb'_toNat]

/-- Bit 7 of a byte, the sign (R142). -/
theorem byte_bit7_iff (b : Byte) : b.getLsbD 7 = true ↔ 128 ≤ b.toNat := by
  revert b
  decide

/-- The whole degrees never pass 127, so the hundredths alone decide (R148). -/
theorem v3Temperature_range_iff (b2 b3 : Byte) :
    ((b2.extractLsb' 0 7).toNat > 127 ∨ b3.toNat > 99) ↔ 99 < b3.toNat := by
  rw [byte_low7_toNat]
  omega

theorem v3Temperature_absent {b3 : Byte} (h : 99 < b3.toNat) (b2 : Byte) :
    v3Temperature b2 b3 = absentReading (b2 ++ b3) :=
  if_pos ((v3Temperature_range_iff b2 b3).mpr h)

/-- The magnitude of a V3 temperature, in units of 10^-4 degrees (R142). -/
def v3Magnitude (b2 b3 : Byte) : Int := ((b2.toNat % 128) * 100 + b3.toNat) * 100

/-- With the hundredths in range the magnitude is the reading, negated by the sign bit (R142). -/
theorem v3Temperature_present {b3 : Byte} (h : b3.toNat ≤ 99) (b2 : Byte) :
    v3Temperature b2 b3 =
      ⟨true, wrap32 (if 128 ≤ b2.toNat then -v3Magnitude b2 b3 else v3Magnitude b2 b3), b2 ++ b3, false⟩ := by
  have inRange := mt (v3Temperature_range_iff b2 b3).mp (Nat.not_lt.mpr h)
  refine (if_neg inRange).trans ?_
  simp only [byte_low7_toNat, byte_bit7_iff]
  rfl

theorem exec_readTemp_v3_present {s : State} (h : hasInstance 0x03 s) (hfrac : s.payload[3].toNat ≤ 99) {value : Int}
    (hv : (if 128 ≤ s.payload[2].toNat then -v3Magnitude s.payload[2] s.payload[3]
      else v3Magnitude s.payload[2] s.payload[3]) = value) :
    exec .readTemp s = .next (afterReading true value (s.payload[2] ++ s.payload[3]) false s) := by
  rw [exec_read_of_rule (f := .v3) rfl h rfl, v3Temp, v3Temperature_present hfrac, hv, finish_eq _ value s rfl]

/-- Settles O30: the hundredths decide whether there is a reading, the sign bit which of the two values it is. -/
theorem v3TemperatureCompletes : Obligations.V3TemperatureCompletes := by
  refine ⟨rfl, fun s h => ⟨fun hfrac => ?absent, fun hfrac hsign => ?positive, fun hfrac hsign => ?negative⟩⟩
  case absent =>
    rw [exec_read_of_rule (f := .v3) rfl h rfl, v3Temp, v3Temperature_absent hfrac, finish_absentReading]
  case positive => exact exec_readTemp_v3_present h hfrac (if_neg (Nat.not_le.mpr hsign))
  case negative => exact exec_readTemp_v3_present h hfrac (if_pos hsign)

end Sys2Proof.Machine
end

section
/-! PROOFS. The V5 and C5 layouts (R155 to R177): the fields with a sentinel (R100, R108) and the address rule, completed; that
the two layouts agree on the bytes they share (R179); and the all-sentinel payloads (R178). -/

namespace Sys2Proof.Machine

/-! The fields with a sentinel, completed (R100, R108) -/

section
variable {n i : Nat} {off mul : Int}

theorem finish_fieldU16_sentinel (b : Vector Byte n) (inv : Half) (h : i + 1 < n) (fits : ScaleFits off mul) (s : State) :
    finish (fieldU16 b i off mul (some inv) h) s =
      afterField (b[i] ++ b[i + 1]) inv (((b[i] ++ b[i + 1]).toNat + off) * mul) s :=
  finish_decodeField_sentinel s (half_and_ones _) rfl fun _ => overflows_scaled fits .unsigned _

theorem finish_fieldS16_sentinel (b : Vector Byte n) (inv : Half) (h : i + 1 < n) (fits : ScaleFits off mul) (s : State) :
    finish (fieldS16 b i off mul (some inv) h) s =
      afterField (b[i] ++ b[i + 1]) inv (((b[i] ++ b[i + 1]).toInt + off) * mul) s :=
  finish_decodeField_sentinel s (half_and_ones _) rfl fun _ => overflows_scaled fits .signed _

theorem finish_fieldU8_sentinel (b : Vector Byte n) (inv : Half) (h : i < n) (fits : ScaleFits off mul) (s : State) :
    finish (fieldU8 b i off mul (some inv) h) s = afterField (0#8 ++ b[i]) inv ((b[i].toNat + off) * mul) s := by
  rw [← promoted_toNat b[i]]
  exact finish_decodeField_sentinel s (half_and_ones _) rfl fun _ => overflows_scaled fits .unsigned _

theorem finish_fieldBM_sentinel {w mask pat : Half} {shift : Nat} (hp : w >>> shift &&& mask = pat) (inv : Half)
    (fits : ScaleFits off mul) (s : State) :
    finish (fieldBM w shift mask off mul (some inv)) s = afterField pat inv ((pat.toNat + off) * mul) s :=
  finish_decodeField_sentinel s hp rfl fun _ => overflows_scaled fits .unsigned _

end

/-! The two fields of a power word (R162, R172) -/

/-- Bits 4:0 of a power word, as a remainder (R163, R173). -/
theorem powerWord_low5 (w : Half) : w >>> 0 &&& 0x001F = BitVec.ofNat 16 (w.toNat % 32) := by
  have low : (w >>> 0 &&& 0x001F).toNat = w.toNat % 32 :=
    (BitVec.toNat_and _ _).trans (Nat.and_two_pow_sub_one_eq_mod w.toNat 5)
  apply BitVec.eq_of_toNat_eq
  rw [low, BitVec.toNat_ofNat]
  omega

/-- Bits 15:5 of a power word, as a quotient: the mask of R164 and R174 removes nothing that the shift left. -/
theorem powerWord_high11 (w : Half) : w >>> 5 &&& 0x07FF = BitVec.ofNat 16 (w.toNat / 32) := by
  have high : (w >>> 5 &&& 0x07FF).toNat = w.toNat / 32 % 2048 := by
    rw [BitVec.toNat_and, BitVec.toNat_ushiftRight, Nat.shiftRight_eq_div_pow]
    exact Nat.and_two_pow_sub_one_eq_mod _ 11
  have := w.isLt
  apply BitVec.eq_of_toNat_eq
  rw [high, BitVec.toNat_ofNat]
  omega

/-! The address rule (R167) -/

theorem addressBytes_eq (p : Vector Byte 24) (i : Nat) (h : i + 5 < 24) :
    addressBytes p i h = #v[p[i], p[i + 1], p[i + 2], p[i + 3], p[i + 4], p[i + 5]] := rfl

/-- Some byte is not 0xFF exactly when the address is not six of them (R167). -/
theorem any_ne_ff_eq (a : Vector Byte 6) : a.toList.any (· != 0xFF#8) = decide (a ≠ Vector.replicate 6 0xFF#8) := by
  rw [Bool.eq_iff_iff, decide_eq_true_iff, ne_eq, Vector.eq_replicate_iff]
  simp only [List.any_eq_true, Vector.mem_toList_iff, bne_iff_ne, ne_eq, not_forall, exists_prop]

theorem readAddress_eq (a : Vector Byte 6) (s : State) : readAddress a s = afterAddress a s :=
  congrArg (fun valid => afterReading valid 0 0 false (setAddrOut a s)) (any_ne_ff_eq a)

/-! Each field of the two layouts -/

/-- Settles O31: each rule is a 16-bit window with a sentinel, and every scale fits. -/
theorem v5SensorFieldsComplete : Obligations.V5SensorFieldsComplete := by
  refine ⟨rfl, rfl, rfl, rfl, rfl, rfl, fun s h => ⟨?temp, ?humid, ?press, ?accx, ?accy, ?accz⟩⟩
  case temp =>
    rw [exec_read_of_rule (f := .v5) rfl h rfl, v5Temp, finish_fieldS16_sentinel _ _ _ (by decide), add_zero]
    rfl
  case humid =>
    rw [exec_read_of_rule (f := .v5) rfl h rfl, v5Humid, finish_fieldU16_sentinel _ _ _ (by decide), add_zero]
    rfl
  case press =>
    rw [exec_read_of_rule (f := .v5) rfl h rfl, v5Press, finish_fieldU16_sentinel _ _ _ (by decide)]
    rfl
  case accx =>
    rw [exec_read_of_rule (f := .v5) rfl h rfl, v5Accx, finish_fieldS16_sentinel _ _ _ (by decide), add_zero]
    rfl
  case accy =>
    rw [exec_read_of_rule (f := .v5) rfl h rfl, v5Accy, finish_fieldS16_sentinel _ _ _ (by decide), add_zero]
    rfl
  case accz =>
    rw [exec_read_of_rule (f := .v5) rfl h rfl, v5Accz, finish_fieldS16_sentinel _ _ _ (by decide), add_zero]
    rfl

/-- Settles O32: the power word's two fields are its remainder and quotient by 32. -/
theorem v5PowerAndCountersComplete : Obligations.V5PowerAndCountersComplete := by
  refine ⟨rfl, rfl, rfl, rfl, fun s h => ⟨?txpwr, ?batt, ?move, ?seq⟩⟩
  case txpwr =>
    rw [exec_read_of_rule (f := .v5) rfl h rfl, v5Txpwr, finish_fieldBM_sentinel (powerWord_low5 _) _ (by decide)]
    rfl
  case batt =>
    rw [exec_read_of_rule (f := .v5) rfl h rfl, v5Batt, finish_fieldBM_sentinel (powerWord_high11 _) _ (by decide)]
    rfl
  case move =>
    rw [exec_read_of_rule (f := .v5) rfl h rfl, v5Move, finish_fieldU8_sentinel _ _ _ (by decide), add_zero]
  case seq =>
    rw [exec_read_of_rule (f := .v5) rfl h rfl, v5Seq, finish_fieldU16_sentinel _ _ _ (by decide), add_zero]

/-- Settles O33: the C5 rules are those of V5 at the C5 offsets. -/
theorem c5FieldsComplete : Obligations.C5FieldsComplete := by
  refine ⟨rfl, rfl, rfl, rfl, rfl, rfl, rfl, fun s h => ⟨?temp, ?humid, ?press, ?txpwr, ?batt, ?move, ?seq⟩⟩
  case temp =>
    rw [exec_read_of_rule (f := .c5) rfl h rfl, c5Temp, finish_fieldS16_sentinel _ _ _ (by decide), add_zero]
    rfl
  case humid =>
    rw [exec_read_of_rule (f := .c5) rfl h rfl, c5Humid, finish_fieldU16_sentinel _ _ _ (by decide), add_zero]
    rfl
  case press =>
    rw [exec_read_of_rule (f := .c5) rfl h rfl, c5Press, finish_fieldU16_sentinel _ _ _ (by decide)]
    rfl
  case txpwr =>
    rw [exec_read_of_rule (f := .c5) rfl h rfl, c5Txpwr, finish_fieldBM_sentinel (powerWord_low5 _) _ (by decide)]
    rfl
  case batt =>
    rw [exec_read_of_rule (f := .c5) rfl h rfl, c5Batt, finish_fieldBM_sentinel (powerWord_high11 _) _ (by decide)]
    rfl
  case move =>
    rw [exec_read_of_rule (f := .c5) rfl h rfl, c5Move, finish_fieldU8_sentinel _ _ _ (by decide), add_zero]
  case seq =>
    rw [exec_read_of_rule (f := .c5) rfl h rfl, c5Seq, finish_fieldU16_sentinel _ _ _ (by decide), add_zero]
    rfl

/-- Settles O34: each rule is the address rule at its format's offset; the one of V8 does not open the gate. -/
theorem addressReadsComplete : Obligations.AddressReadsComplete := by
  refine ⟨rfl, fun s => ⟨fun h => h.elim (fun h => ?v5) (fun h => ?v8), fun h => ?c5⟩⟩
  case v5 => rw [exec_read_of_rule (f := .v5) rfl h rfl, v5Addr, readAddress_eq, addressBytes_eq]
  case v8 => rw [exec_read_of_rule (f := .v8) rfl h rfl, v8Addr, readAddress_eq, addressBytes_eq]
  case c5 => rw [exec_read_of_rule (f := .c5) rfl h rfl, c5Addr, readAddress_eq, addressBytes_eq]

/-! C5 and V5 agree (R179) -/

/-- A C5 payload q holds the bytes of a V5 payload p but for the tag and the accelerations (R168, R179). -/
structure SharedBytes (p q : Vector Byte 24) : Prop where
  head : ∀ j : Fin 6, q[j.val + 1] = p[j.val + 1]
  tail : ∀ j : Fin 11, q[j.val + 7] = p[j.val + 13]

theorem window16_congr {n i j : Nat} {p q : Vector Byte n} {hi : i + 1 < n} {hj : j + 1 < n} (high : q[j] = p[i])
    (low : q[j + 1] = p[i + 1]) : window16 q j hj = window16 p i hi := by
  rw [window16, high, low, window16]

section
variable {p q : Vector Byte 24}

theorem SharedBytes.head_window16 (h : SharedBytes p q) (k : Fin 5) :
    window16 q (k.val + 1) (by omega) = window16 p (k.val + 1) (by omega) :=
  window16_congr (h.head k.castSucc) (h.head k.succ)

theorem SharedBytes.tail_window16 (h : SharedBytes p q) (k : Fin 10) :
    window16 q (k.val + 7) (by omega) = window16 p (k.val + 13) (by omega) :=
  window16_congr (h.tail k.castSucc) (by simpa [Nat.add_right_comm] using h.tail k.succ)

theorem SharedBytes.tail_window8 (h : SharedBytes p q) (k : Fin 11) :
    window8 q (k.val + 7) (by omega) = window8 p (k.val + 13) (by omega) :=
  congrArg (0x00#8 ++ ·) (h.tail k)

/-- The C5 address bytes are the V5 ones, 6 bytes lower (R167, R177). -/
theorem SharedBytes.tail_addressBytes (h : SharedBytes p q) :
    addressBytes q 12 (by decide) = addressBytes p 18 (by decide) :=
  congrArg Vector.ofFn (funext fun j : Fin 6 => by simpa [Nat.add_assoc, Nat.add_comm] using h.tail ⟨j.val + 5, by omega⟩)

end

/-- The registers both completions write hold the same (R226, R227). -/
def SameOutputs (t v : State) : Prop := v.status = t.status ∧ v.result = t.result ∧ v.raw = t.raw

/-- A field's outputs come from its word alone (R100). -/
theorem finish_decodeField_sameOutputs {w w' mask : Half} {sgn : Sign} {inv : Option Half} {off mul : Int} (hw : w' = w)
    (s u : State) :
    SameOutputs (finish (decodeField w sgn mask inv off mul) s) (finish (decodeField w' sgn mask inv off mul) u) :=
  hw ▸ ⟨rfl, rfl, rfl⟩

/-- Each field C5 has is the V5 field: the same operands on a word of shared bytes (R179). -/
theorem layoutRule_c5_agrees {s u : State} (hb : SharedBytes s.payload u.payload) {field : Field} {v5 c5 : State → State}
    (h5 : layoutRule field .v5 = some v5) (hc : layoutRule field .c5 = some c5) :
    SameOutputs (v5 s) (c5 u) ∧ (field = .addr → (c5 u).addrOut = (v5 s).addrOut) := by
  cases field with
  | accx | accy | accz => cases hc
  | temp => cases h5; cases hc; exact ⟨finish_decodeField_sameOutputs (hb.head_window16 0) s u, nofun⟩
  | humid => cases h5; cases hc; exact ⟨finish_decodeField_sameOutputs (hb.head_window16 2) s u, nofun⟩
  | press => cases h5; cases hc; exact ⟨finish_decodeField_sameOutputs (hb.head_window16 4) s u, nofun⟩
  | txpwr =>
    cases h5; cases hc
    exact ⟨finish_decodeField_sameOutputs (congrArg (fun w : Half => w >>> 0) (hb.tail_window16 0)) s u, nofun⟩
  | batt =>
    cases h5; cases hc
    exact ⟨finish_decodeField_sameOutputs (congrArg (fun w : Half => w >>> 5) (hb.tail_window16 0)) s u, nofun⟩
  | move => cases h5; cases hc; exact ⟨finish_decodeField_sameOutputs (hb.tail_window8 2) s u, nofun⟩
  | seq => cases h5; cases hc; exact ⟨finish_decodeField_sameOutputs (hb.tail_window16 3) s u, nofun⟩
  | addr =>
    cases h5; cases hc
    rw [v5Addr, c5Addr, hb.tail_addressBytes]
    exact ⟨⟨rfl, rfl, rfl⟩, fun _ => rfl⟩

/-- The commands that read a field both layouts have (R130). -/
theorem fieldOf_shared {i : Instr} (h : i ∈ Instr.readAddr :: plaintextReads) :
    ∃ field v5 c5, fieldOf i = some field ∧ layoutRule field .v5 = some v5 ∧ layoutRule field .c5 = some c5 ∧
      (i = .readAddr → field = .addr) := by
  simp only [plaintextReads, List.mem_cons, List.not_mem_nil, or_false] at h
  rcases h with rfl | rfl | rfl | rfl | rfl | rfl | rfl | rfl
  · exact ⟨_, _, _, rfl, rfl, rfl, fun _ => rfl⟩
  all_goals exact ⟨_, _, _, rfl, rfl, rfl, nofun⟩

/-- Settles O45: both READs are the two layouts' rules of one field. -/
theorem c5AgreesWithV5 : Obligations.C5AgreesWithV5 := by
  intro s u t v i hs hu head tail hi ht hv
  obtain ⟨field, v5, c5, hf, h5, hc, haddr⟩ := fieldOf_shared hi
  rw [exec_read_of_rule (f := .v5) hf hs h5] at ht
  rw [exec_read_of_rule (f := .c5) hf hu hc] at hv
  cases ht
  cases hv
  obtain ⟨⟨hstatus, hresult, hraw⟩, haddrOut⟩ := layoutRule_c5_agrees ⟨head, tail⟩ h5 hc
  exact ⟨hstatus, hresult, hraw, haddrOut ∘ haddr⟩

/-! The all-sentinel payloads (R178) -/

/-- The command completes with no reading and no error (R178). -/
def ReadsAbsent (i : Instr) (s : State) : Prop :=
  ∃ t, exec i s = .next t ∧ t.status = ⟨0, false, false⟩ ∧ t.result = 0 ∧ t.errlog = s.errlog

/-- A field whose pattern is its sentinel (R100). -/
theorem readsAbsent_of_field {i : Instr} {s : State} {pat inv : Half} {value : Int}
    (h : exec i s = .next (afterField pat inv value s)) (hp : pat = inv) : ReadsAbsent i s :=
  ⟨_, h.trans (congrArg Host.Outcome.next (if_pos hp)), rfl, rfl, rfl⟩

/-- An address of six 0xFF bytes (R167). -/
theorem readsAbsent_of_address {i : Instr} {s : State} {a : Vector Byte 6}
    (h : exec i s = .next (afterAddress a s)) (ha : a = Vector.replicate 6 0xFF) : ReadsAbsent i s := by
  subst ha
  exact ⟨_, h, rfl, rfl, rfl⟩

/-- On V5 every field's pattern is its sentinel (R178). -/
theorem readsAbsent_v5 {s : State} {i : Instr} (h : hasInstance 0x05 s) (hi : i ∈ Instr.readAddr :: valueReads)
    (hp : s.payload = #v[0x05, 0x80, 0x00, 0xFF, 0xFF, 0xFF, 0xFF, 0x80, 0x00, 0x80, 0x00, 0x80, 0x00, 0xFF, 0xFF, 0xFF,
      0xFF, 0xFF, 0xFF, 0xFF, 0xFF, 0xFF, 0xFF, 0xFF]) : ReadsAbsent i s := by
  obtain ⟨-, -, -, -, -, -, sensors⟩ := v5SensorFieldsComplete
  obtain ⟨temp, humid, press, accx, accy, accz⟩ := sensors s h
  obtain ⟨-, -, -, -, others⟩ := v5PowerAndCountersComplete
  obtain ⟨txpwr, batt, move, seq⟩ := others s h
  obtain ⟨-, address⟩ := addressReadsComplete
  obtain ⟨addr, -⟩ := address s
  simp only [valueReads, List.mem_cons, List.not_mem_nil, or_false] at hi
  rcases hi with rfl | rfl | rfl | rfl | rfl | rfl | rfl | rfl | rfl | rfl | rfl
  · exact readsAbsent_of_address (addr (.inl h)) (by rw [hp]; rfl)
  · exact readsAbsent_of_field temp (by rw [hp]; rfl)
  · exact readsAbsent_of_field humid (by rw [hp]; rfl)
  · exact readsAbsent_of_field press (by rw [hp]; rfl)
  · exact readsAbsent_of_field accx (by rw [hp]; rfl)
  · exact readsAbsent_of_field accy (by rw [hp]; rfl)
  · exact readsAbsent_of_field accz (by rw [hp]; rfl)
  · exact readsAbsent_of_field batt (by rw [hp]; rfl)
  · exact readsAbsent_of_field txpwr (by rw [hp]; rfl)
  · exact readsAbsent_of_field move (by rw [hp]; rfl)
  · exact readsAbsent_of_field seq (by rw [hp]; rfl)

/-- On C5 too: the temperature's bytes are 0x80 0x00 and every later byte is 0xFF (R178). -/
theorem readsAbsent_c5 {s : State} {i : Instr} (h : hasInstance 0xC5 s) (hi : i ∈ Instr.readAddr :: plaintextReads)
    (hp : ∀ j : Fin 17, s.payload[j.val + 1] = if j.val = 0 then 0x80 else if j.val = 1 then 0x00 else 0xFF) :
    ReadsAbsent i s := by
  obtain ⟨-, -, -, -, -, -, -, fields⟩ := c5FieldsComplete
  obtain ⟨temp, humid, press, txpwr, batt, move, seq⟩ := fields s h
  obtain ⟨-, address⟩ := addressReadsComplete
  obtain ⟨-, addr⟩ := address s
  have b1 : s.payload[1] = 0x80 := hp 0
  have b2 : s.payload[2] = 0x00 := hp 1
  have ff : ∀ k (_ : 3 ≤ k) (_ : k < 18), s.payload[k] = 0xFF := fun k h3 h18 => by
    obtain ⟨m, rfl⟩ := Nat.exists_eq_add_of_le' h3
    simpa using hp ⟨m + 2, by omega⟩
  simp only [plaintextReads, List.mem_cons, List.not_mem_nil, or_false] at hi
  rcases hi with rfl | rfl | rfl | rfl | rfl | rfl | rfl | rfl
  · exact readsAbsent_of_address (addr h) (by simp [ff]; rfl)
  · exact readsAbsent_of_field temp (by simp [b1, b2])
  · exact readsAbsent_of_field humid (by simp [ff])
  · exact readsAbsent_of_field press (by simp [ff])
  · exact readsAbsent_of_field batt (by simp [ff])
  · exact readsAbsent_of_field txpwr (by simp [ff])
  · exact readsAbsent_of_field move (by simp [ff])
  · exact readsAbsent_of_field seq (by simp [ff])

/-- Settles O46: every pattern is its field's sentinel, and the address is six 0xFF bytes. -/
theorem allSentinelPayloadIsAbsent : Obligations.AllSentinelPayloadIsAbsent :=
  ⟨fun _ _ => readsAbsent_v5, fun _ _ => readsAbsent_c5⟩

end Sys2Proof.Machine
end

section
/-! PROOFS. The V8 key and the lazy gate (R180, R190 to R195): the derived key byte by byte, what one run of the stages leaves,
VERIFY as the gate on a V8 instance, and that a plaintext READ does not see whether the gate ran before it. -/

namespace Sys2Proof.Machine

/-! The derived key (R180, R195) -/

/-- The first 8 key bytes depend on the device identifier (R180). -/
theorem deriveKey_getElem_low (p : Block) (d : Vector Byte 8) {i : Nat} (h : i < 8) :
    (deriveKey p d)[i] = p[i] ^^^ d[i] := by
  simp [deriveKey, Nat.le_of_lt_succ h]

/-- The last 8 are the password's (R180). -/
theorem deriveKey_getElem_high (p : Block) (d : Vector Byte 8) {i : Nat} (h8 : 8 ≤ i) (h : i < 16) :
    (deriveKey p d)[i] = p[i] := by
  simp [deriveKey, Nat.not_le_of_lt h8]

theorem deriveKey_passwd_injective (d : Vector Byte 8) : Function.Injective (deriveKey · d) := by
  intro p p' h
  refine Vector.ext fun i hi => ?_
  have hbyte : (deriveKey p d)[i] = (deriveKey p' d)[i] := congrArg (·[i]) h
  rcases Nat.lt_or_ge i 8 with low | high
  · rw [deriveKey_getElem_low p d low, deriveKey_getElem_low p' d low] at hbyte
    exact (BitVec.xor_left_inj _).mp hbyte
  · rwa [deriveKey_getElem_high p d high hi, deriveKey_getElem_high p' d high hi] at hbyte

theorem deriveKey_devid_injective (p : Block) : Function.Injective (deriveKey p) := by
  intro d d' h
  refine Vector.ext fun i hi => ?_
  have hbyte : (deriveKey p d)[i] = (deriveKey p d')[i] := congrArg (·[i]) h
  rw [deriveKey_getElem_low p d hi, deriveKey_getElem_low p d' hi] at hbyte
  exact (BitVec.xor_right_inj _).mp hbyte

/-- Settles O42: each argument can be read back from the key, the other one known. -/
theorem derivedKeyInjective : Obligations.DerivedKeyInjective :=
  ⟨fun _ _ d => (deriveKey_passwd_injective d).ne, fun p _ _ => (deriveKey_devid_injective p).ne⟩

/-! The stages (R190 to R193) -/

/-- What the three stages leave, run one after the other (R180, R190, R192). -/
theorem stages_eq {s : State} {key plain : Block} {crc : Byte} (hkey : deriveKey s.passwd s.devid = key)
    (hplain : decryptBlock s.cfg.cipher key (cipherBlock s.payload) = plain)
    (hcrc : crc8 s.cfg.crcTable plain.toList = crc) :
    stage3 (stage2 (stage1 s)) =
      { s with
        key := key
        plain := plain
        crcCalc := crc
        inst := ⟨s.inst.constructed, if crc = s.payload[17] then cryptVerified else cryptFailed⟩ } := by
  simp only [stage1, stage2, stage3, hkey, hplain, hcrc]

/-- The first opening of the gate leaves the derived key in KEY (R180, R193). -/
theorem ensurePlain_key {s : State} (h : s.inst.crypt = cryptNotEvaluated) :
    (ensurePlain s).key = deriveKey s.passwd s.devid := by
  rw [ensurePlain_of_notEvaluated h, stage3_key, stage2_key, stage1_key]

theorem ensurePlain_idempotent (s : State) : ensurePlain (ensurePlain s) = ensurePlain s :=
  ensurePlain_of_ne (ensurePlain_crypt_ne s)

/-- The ciphertext block as PAYLOAD[1..16] (R190). -/
theorem cipherBlock_eq (p : Vector Byte 24) : cipherBlock p = Vector.ofFn fun j : Fin 16 => p[j.val + 1] := by
  simp only [cipherBlock, Nat.add_comm 1]

/-- The CRC as one table lookup a byte (R191). -/
theorem crc8_eq_foldl (table : ByteTable) (bytes : List Byte) :
    crc8 table bytes = bytes.foldl (fun c b => tableAt table (c ^^^ b)) 0 := rfl

/-- Settles O36: the CRC picks one of the two next states, and in both the stages are done. -/
theorem ensurePlainRunsStagesOnce : Obligations.EnsurePlainRunsStagesOnce := by
  refine fun s => ⟨fun h => ⟨_, _, _, rfl, rfl, rfl, fun hcrc => ?verified, fun hcrc => ?failed⟩, ensurePlain_of_ne,
    ensurePlain_idempotent s⟩
  all_goals
    rw [ensurePlain_of_notEvaluated h, stages_eq rfl (congrArg _ (cipherBlock_eq s.payload)) (crc8_eq_foldl _ _)]
  case verified => rw [if_pos hcrc]
  case failed => rw [if_neg hcrc]

/-! The gate, by its verdict (R193, R200) -/

/-- The gate of a state whose gate ran already is the same gate (R193). -/
theorem plainGate_ensurePlain (rule : State → State) (s : State) : plainGate rule (ensurePlain s) = plainGate rule s := by
  rw [plainGate, plainGate, ensurePlain_idempotent]

theorem plainGate_of_passes {s : State} (h : (ensurePlain s).inst.crypt = cryptVerified) (rule : State → State) :
    plainGate rule s = rule (ensurePlain s) := by
  rw [← plainGate_ensurePlain, plainGate_of_verified h]

theorem plainGate_of_fails {s : State} (h : (ensurePlain s).inst.crypt ≠ cryptVerified) (rule : State → State) :
    plainGate rule s = raiseError .integrity (ensurePlain s) := by
  rw [← plainGate_ensurePlain, plainGate_of_failed (ensurePlain_crypt_ne s) h]

/-- A reading behind the gate is the same after another completion behind the gate: the stages ran once, and a completion
leaves PLAIN, the verdict and at most the sticky bit that is set again (R36, R193, R200). -/
theorem plainGate_plainGate {r : State → Reading} (hr : ∀ s t, s.plain = t.plain → r s = r t) (q : Reading) (s : State) :
    plainGate (fun t => finish (r t) t) (plainGate (finish q) s) = plainGate (fun t => finish (r t) t) s := by
  by_cases hv : (ensurePlain s).inst.crypt = cryptVerified
  · rw [plainGate_of_passes hv, plainGate_of_passes hv, plainGate_of_verified (s := finish _ _) hv, finish_finish,
      hr (finish q (ensurePlain s)) (ensurePlain s) rfl]
  · rw [plainGate_of_fails hv, plainGate_of_fails hv, plainGate_of_failed (s := raiseError _ _) (ensurePlain_crypt_ne s) hv,
      raiseError_raiseError]

/-! VERIFY (R194) -/

theorem exec_verify_of_no_instance {s : State} (hc : s.inst.constructed = false) :
    exec .verify s = .next (raiseError .notConstructed s) := by
  rcases verifyInstance_cases s with ⟨-, e⟩ | ⟨hn, -⟩ | ⟨h, -⟩
  · exact congrArg Host.Outcome.next e
  · cases hc.symm.trans hn
  · cases hc.symm.trans h.1

theorem exec_verify_of_other_format {s : State} (hc : s.inst.constructed = true) (hf : s.fmt ≠ 0x08) :
    exec .verify s = .next (raiseError .notInFormat s) := by
  rcases verifyInstance_cases s with ⟨hn, -⟩ | ⟨-, -, e⟩ | ⟨h, -⟩
  · cases hc.symm.trans hn
  · exact congrArg Host.Outcome.next e
  · exact absurd h.2 hf

/-- VERIFY of a V8 instance is the gate with nothing behind it (R194). -/
theorem exec_verify_of_instance {s : State} (h : hasInstance 0x08 s) :
    exec .verify s = .next (plainGate (finish noReading) s) := by
  rcases verifyInstance_cases s with ⟨hn, -⟩ | ⟨-, hf, -⟩ | ⟨-, e⟩
  · cases h.1.symm.trans hn
  · exact absurd h.2 hf
  · exact congrArg Host.Outcome.next e

/-- Settles O37: the instance is checked, then its format, then the gate's verdict. -/
theorem verifyCompletes : Obligations.VerifyCompletes := by
  refine ⟨rfl, fun s => ⟨exec_verify_of_no_instance, exec_verify_of_other_format, fun h hv => ?_, fun h hv => ?_⟩⟩
  · rw [exec_verify_of_instance h, plainGate_of_passes hv, finish_noReading]
  · rw [exec_verify_of_instance h, plainGate_of_fails hv, raiseError_eq, errNumber]

/-- VERIFY leaves the KEY that the gate leaves: no completion writes KEY (R226, R227). -/
theorem plainGate_finish_key (q : Reading) (s : State) : (plainGate (finish q) s).key = (ensurePlain s).key := by
  rcases plainGate_cases (finish q) s with ⟨-, e⟩ | ⟨-, e⟩ <;> rw [e]
  · exact finish_key _ _
  · exact raiseError_key _ _

/-- Settles O35: the gate was not evaluated, so it runs stage 1, and no completion writes KEY. -/
theorem stageOneDerivesKey : Obligations.StageOneDerivesKey := by
  intro s t h hcrypt ht
  rw [exec_verify_of_instance h] at ht
  cases ht
  simp only [plainGate_finish_key, ensurePlain_key hcrypt]
  exact ⟨fun i => deriveKey_getElem_low _ _ i.isLt, fun i => deriveKey_getElem_high _ _ (by omega) (by omega)⟩

/-! VERIFY before a plaintext READ (R194) -/

/-- A plaintext READ on V8 is a reading of PLAIN behind the gate (R200 to R208). -/
theorem exec_plaintextRead {i : Instr} (hi : i ∈ plaintextReads) :
    ∃ r : State → Reading, (∀ s t, s.plain = t.plain → r s = r t) ∧
      ∀ s, hasInstance 0x08 s → exec i s = .next (plainGate (fun t => finish (r t) t) s) := by
  have hrule : ∃ field rule, fieldOf i = some field ∧ layoutRule field .v8 = some rule ∧ field ≠ .addr := by
    simp only [plaintextReads, List.mem_cons, List.not_mem_nil, or_false] at hi
    rcases hi with rfl | rfl | rfl | rfl | rfl | rfl | rfl <;> exact ⟨_, _, rfl, rfl, nofun⟩
  obtain ⟨field, rule, hf, hl, hne⟩ := hrule
  rcases layoutRule_v8 hl with ⟨ha, -⟩ | ⟨-, r, rfl, -, hr⟩
  · exact absurd ha hne
  · exact ⟨r, hr, fun s h => exec_read_of_rule (f := .v8) hf h hl⟩

/-- Settles O40: VERIFY is a gate with an empty rule, and a gate before a gate is not seen. -/
theorem verifyTransparentToReads : Obligations.VerifyTransparentToReads := by
  intro s t i h hi ht
  obtain ⟨r, hr, hread⟩ := exec_plaintextRead hi
  rw [exec_verify_of_instance h] at ht
  cases ht
  have kept : instanceView (plainGate (finish noReading) s) = instanceView s :=
    (repeatable_plainGate (r := fun _ => noReading) fun _ _ _ => rfl).keeps s
  have ht : hasInstance 0x08 (plainGate (finish noReading) s) :=
    ⟨(constructed_congr kept).trans h.1, (fmt_congr kept).trans h.2⟩
  rw [hread _ ht, hread s h, plainGate_plainGate hr]

end Sys2Proof.Machine
end

section
/-! PROOFS. The default tables (R184, R185, R191), and that the forward cipher undoes the inverse cipher (R181): each
transformation of a round has its inverse, and the rounds follow by induction. -/

namespace Sys2Proof.Machine

/-! The tables -/

/-- The inverse S-box undoes the S-box, entry by entry (R184, R185). -/
theorem invSbox_sbox : Function.LeftInverse (tableAt invSbox) (tableAt sbox) := by
  unfold Function.LeftInverse
  decide +kernel

/-- A byte is one of finitely many, so the S-box undoes the inverse S-box too. -/
theorem sbox_invSbox : Function.RightInverse (tableAt invSbox) (tableAt sbox) := by
  have : Finite Byte := Finite.of_injective BitVec.toFin fun _ _ h => BitVec.toFin_inj.mp h
  exact invSbox_sbox.rightInverse_of_surjective (Finite.surjective_of_injective invSbox_sbox.injective)

/-- One bit of the division by the CRC's polynomial x^8 + x^2 + x + 1 (R191). -/
def crcShift (c : Byte) : Byte := if c.msb then (c <<< 1) ^^^ 0x07 else c <<< 1

/-- The entry of a byte is its remainder, eight bits divided (R191). -/
theorem crc8Table_eq_remainder : ∀ x : Byte, tableAt crc8Table x = (List.range 8).foldl (fun c _ => crcShift c) x := by
  decide +kernel

/-- Settles O43: both are properties of 256 table entries. -/
theorem defaultTablesAreAsDefined : Obligations.DefaultTablesAreAsDefined :=
  ⟨invSbox_sbox, crc8Table_eq_remainder⟩

/-! Products in GF(2^8) (R183) -/

theorem gfMulBits_xor (a b c : Byte) (n : Nat) : gfMulBits a (b ^^^ c) n = gfMulBits a b n ^^^ gfMulBits a c n := by
  have exchange : ∀ p q x y : Byte, p ^^^ q ^^^ (x ^^^ y) = p ^^^ x ^^^ (q ^^^ y) := fun _ _ _ _ => by ac_rfl
  induction n with
  | zero => exact BitVec.xor_self.symm
  | succ k ih =>
    simp only [gfMulBits, ih, BitVec.getLsbD_xor]
    rw [← exchange]
    congr 1
    cases b.getLsbD k <;> cases c.getLsbD k <;> simp

/-- The product distributes over the sum, which is XOR (R183). -/
theorem gfMul_xor (a b c : Byte) : gfMul a (b ^^^ c) = gfMul a b ^^^ gfMul a c := gfMulBits_xor a b c 8

/-! MixColumns, column by column (R187) -/

/-- Column c of the state: the cells s[0][c] to s[3][c] (R182). -/
def columnOf (s : Block) (c : Fin 4) : Fin 4 → Byte := fun r => s[4 * c.val + r.val]

/-- MixColumns on one column. -/
def mixColumn (a : Fin 4 → Byte) : Fin 4 → Byte := fun r => mixCell (a 0) (a 1) (a 2) (a 3) r.val

/-- InvMixColumns on one column (R187). -/
def invMixColumn (a : Fin 4 → Byte) : Fin 4 → Byte := fun r => invMixCell (a 0) (a 1) (a 2) (a 3) r.val

theorem block_ext_columns {s t : Block} (h : ∀ c, columnOf s c = columnOf t c) : s = t := by
  refine Vector.ext fun i hi => ?_
  have hcell := congrFun (h ⟨i / 4, by omega⟩) ⟨i % 4, by omega⟩
  simpa only [columnOf, Nat.div_add_mod] using hcell

theorem cell_column (c r : Fin 4) : (4 * c.val + r.val) / 4 = c.val := by omega

theorem cell_row (c r : Fin 4) : (4 * c.val + r.val) % 4 = r.val := by omega

theorem columnOf_ofFn (f : Fin 16 → Byte) (c r : Fin 4) :
    columnOf (Vector.ofFn f) c r = f ⟨4 * c.val + r.val, by omega⟩ :=
  Vector.getElem_ofFn _

theorem columnOf_mixColumns (s : Block) (c : Fin 4) : columnOf (mixColumns s) c = mixColumn (columnOf s c) := by
  funext r
  simp only [mixColumns, columnOf_ofFn, cell_column, cell_row]
  rfl

theorem columnOf_invMixColumns (s : Block) (c : Fin 4) : columnOf (invMixColumns s) c = invMixColumn (columnOf s c) := by
  funext r
  simp only [invMixColumns, columnOf_ofFn, cell_column, cell_row]
  rfl

section
variable (a : Fin 4 → Byte)

theorem mixColumn_zero : mixColumn a 0 = gfMul 0x02 (a 0) ^^^ gfMul 0x03 (a 1) ^^^ a 2 ^^^ a 3 := rfl
theorem mixColumn_one : mixColumn a 1 = a 0 ^^^ gfMul 0x02 (a 1) ^^^ gfMul 0x03 (a 2) ^^^ a 3 := rfl
theorem mixColumn_two : mixColumn a 2 = a 0 ^^^ a 1 ^^^ gfMul 0x02 (a 2) ^^^ gfMul 0x03 (a 3) := rfl
theorem mixColumn_three : mixColumn a 3 = gfMul 0x03 (a 0) ^^^ a 1 ^^^ a 2 ^^^ gfMul 0x02 (a 3) := rfl

theorem invMixColumn_zero :
    invMixColumn a 0 = gfMul 0x0E (a 0) ^^^ gfMul 0x0B (a 1) ^^^ gfMul 0x0D (a 2) ^^^ gfMul 0x09 (a 3) := rfl
theorem invMixColumn_one :
    invMixColumn a 1 = gfMul 0x09 (a 0) ^^^ gfMul 0x0E (a 1) ^^^ gfMul 0x0B (a 2) ^^^ gfMul 0x0D (a 3) := rfl
theorem invMixColumn_two :
    invMixColumn a 2 = gfMul 0x0D (a 0) ^^^ gfMul 0x09 (a 1) ^^^ gfMul 0x0E (a 2) ^^^ gfMul 0x0B (a 3) := rfl
theorem invMixColumn_three :
    invMixColumn a 3 = gfMul 0x0B (a 0) ^^^ gfMul 0x0D (a 1) ^^^ gfMul 0x09 (a 2) ^^^ gfMul 0x0E (a 3) := rfl

end

/-- Column a turned up by one cell. -/
def rotateColumn (a : Fin 4 → Byte) : Fin 4 → Byte := fun r => a (r + 1)

/-- The rows of the matrix of MixColumns are rotations of one row. -/
theorem mixColumn_rotate (a : Fin 4 → Byte) : mixColumn (rotateColumn a) = rotateColumn (mixColumn a) := by
  funext r
  match r with
  | 0 | 1 | 2 | 3 =>
    simp only [rotateColumn, Fin.reduceAdd, mixColumn_zero, mixColumn_one, mixColumn_two, mixColumn_three]
    ac_rfl

/-- So are those of InvMixColumns (R187). -/
theorem invMixColumn_rotate (a : Fin 4 → Byte) : invMixColumn (rotateColumn a) = rotateColumn (invMixColumn a) := by
  funext r
  match r with
  | 0 | 1 | 2 | 3 =>
    simp only [rotateColumn, Fin.reduceAdd, invMixColumn_zero, invMixColumn_one, invMixColumn_two, invMixColumn_three]
    ac_rfl

/-- What a byte contributes to cell 0 of a column after InvMixColumns and MixColumns, where InvMixColumns multiplies it by
k0, .., k3 for the cells 0, .., 3. -/
def contribution (k0 k1 k2 k3 a : Byte) : Byte :=
  gfMul 0x02 (gfMul k0 a) ^^^ gfMul 0x03 (gfMul k1 a) ^^^ gfMul k2 a ^^^ gfMul k3 a

/-- Cell 0 contributes itself. -/
theorem contribution_cell0 (a : Byte) : contribution 0x0E 0x09 0x0D 0x0B a = a := by
  revert a
  decide +kernel

/-- The other three cells cancel. -/
theorem contribution_cell1 (a : Byte) : contribution 0x0B 0x0E 0x09 0x0D a = 0 := by
  revert a
  decide +kernel

theorem contribution_cell2 (a : Byte) : contribution 0x0D 0x0B 0x0E 0x09 a = 0 := by
  revert a
  decide +kernel

theorem contribution_cell3 (a : Byte) : contribution 0x09 0x0D 0x0B 0x0E a = 0 := by
  revert a
  decide +kernel

theorem mixColumn_invMixColumn_zero (a : Fin 4 → Byte) : mixColumn (invMixColumn a) 0 = a 0 :=
  calc mixColumn (invMixColumn a) 0
    _ = contribution 0x0E 0x09 0x0D 0x0B (a 0) ^^^ contribution 0x0B 0x0E 0x09 0x0D (a 1) ^^^
          contribution 0x0D 0x0B 0x0E 0x09 (a 2) ^^^ contribution 0x09 0x0D 0x0B 0x0E (a 3) := by
      simp only [mixColumn_zero, invMixColumn_zero, invMixColumn_one, invMixColumn_two, invMixColumn_three, gfMul_xor,
        contribution]
      ac_rfl
    _ = a 0 ^^^ 0 ^^^ 0 ^^^ 0 := by
      rw [contribution_cell0, contribution_cell1, contribution_cell2, contribution_cell3]
    _ = a 0 := by simp

/-- Row r + 1 is row r of the rotated column. -/
theorem mixColumn_invMixColumn (a : Fin 4 → Byte) : mixColumn (invMixColumn a) = a := by
  funext r
  induction r using Fin.induction generalizing a with
  | zero => exact mixColumn_invMixColumn_zero a
  | succ r ih =>
    have rotated := ih (rotateColumn a)
    rw [invMixColumn_rotate, mixColumn_rotate] at rotated
    simpa only [rotateColumn, Fin.coeSucc_eq_succ] using rotated

/-! Each transformation of a round undone (R187) -/

theorem mixColumns_invMixColumns (s : Block) : mixColumns (invMixColumns s) = s :=
  block_ext_columns fun c => by rw [columnOf_mixColumns, columnOf_invMixColumns, mixColumn_invMixColumn]

theorem subBytes_invSubBytes (s : Block) : subBytes (invSubBytes s) = s :=
  Vector.ext fun i hi => by simp [subBytes, invSubBytes, sbox_invSbox _]

theorem columnOf_shiftRows (s : Block) (c r : Fin 4) : columnOf (shiftRows s) c r = columnOf s (c + r) r := by
  simp only [shiftRows, columnOf_ofFn, cell_column, cell_row, Nat.add_comm r.val]
  rfl

theorem columnOf_invShiftRows (s : Block) (c r : Fin 4) : columnOf (invShiftRows s) c r = columnOf s (c - r) r := by
  have hsub : (c.val + 4 - r.val) % 4 = (c - r).val := by omega
  simp only [invShiftRows, columnOf_ofFn, cell_column, cell_row, hsub, Nat.add_comm r.val]
  rfl

/-- Row r moves r columns one way and r columns back. -/
theorem shiftRows_invShiftRows (s : Block) : shiftRows (invShiftRows s) = s :=
  block_ext_columns fun c => funext fun r => by
    rw [columnOf_shiftRows, columnOf_invShiftRows, add_sub_cancel_right]

theorem addRoundKey_addRoundKey (w : List KeyWord) (k : Nat) (s : Block) : addRoundKey w k (addRoundKey w k s) = s :=
  Vector.ext fun i hi => by simp [addRoundKey]

/-! The rounds (R188) -/

/-- The forward rounds undo the inverse rounds; between the two the inverse cipher's last substitution stands in the place
of its first. -/
theorem forwardRounds_invRounds (w : List KeyWord) (n : Nat) (s : Block) :
    forwardRounds w n (invSubBytes (invShiftRows (invRounds w n s))) = invSubBytes (invShiftRows s) := by
  induction n generalizing s with
  | zero => rfl
  | succ n ih =>
    rw [invRounds, forwardRounds, ih, subBytes_invSubBytes, shiftRows_invShiftRows, mixColumns_invMixColumns,
      addRoundKey_addRoundKey]

/-- Settles O44: the two ends of the cipher are undone, and between them the nine rounds. -/
theorem aesForwardInvertsInverse : Obligations.AesForwardInvertsInverse := by
  intro key block
  simp only [aes128Enc, aes128Dec]
  rw [addRoundKey_addRoundKey, forwardRounds_invRounds, subBytes_invSubBytes, shiftRows_invShiftRows,
    addRoundKey_addRoundKey]

end Sys2Proof.Machine
end

section
/-! PROOFS. The V8 layout (R200 to R211): what VERIFY and the plaintext READs do by the gate's verdict, the plaintext fields
completed, and that a CRC mismatch leaves the cleartext address readable. -/

namespace Sys2Proof.Machine

/-! A failed check (R200) -/

/-- Where the check does not pass, VERIFY and every plaintext READ end in INTEGRITY on the gate's state (R194, R200). -/
theorem exec_gated_of_fails {i : Instr} {s : State} (hi : i ∈ Instr.verify :: plaintextReads) (h : hasInstance 0x08 s)
    (hv : (ensurePlain s).inst.crypt ≠ cryptVerified) : exec i s = .next (afterError 5 (ensurePlain s)) := by
  rcases List.mem_cons.mp hi with rfl | hread
  · rw [exec_verify_of_instance h, plainGate_of_fails hv, raiseError_eq, errNumber]
  · obtain ⟨r, -, hexec⟩ := exec_plaintextRead hread
    rw [hexec s h, plainGate_of_fails hv, raiseError_eq, errNumber]

/-- INTEGRITY leaves the verdict, so the next plaintext READ finds it again, and the same outputs (R193, R200). -/
theorem exec_gated_again_of_fails {i : Instr} {s : State} (hi : i ∈ Instr.verify :: plaintextReads) (h : hasInstance 0x08 s)
    (hv : (ensurePlain s).inst.crypt ≠ cryptVerified) :
    exec i (afterError 5 (ensurePlain s)) = .next (afterError 5 (ensurePlain s)) := by
  have again : ensurePlain (afterError 5 (ensurePlain s)) = afterError 5 (ensurePlain s) :=
    ensurePlain_raiseError_ensurePlain .integrity s
  have h' : hasInstance 0x08 (afterError 5 (ensurePlain s)) :=
    ⟨(ensurePlain_constructed s).trans h.1, (ensurePlain_fmt s).trans h.2⟩
  rw [exec_gated_of_fails hi h' (by rwa [again]), again]
  exact congrArg Host.Outcome.next (raiseError_raiseError .integrity (ensurePlain s))

/-- Settles O39: a failed check ends a plaintext READ, and the state it leaves is one that failed. -/
theorem v8FieldsGated : Obligations.V8FieldsGated :=
  fun _ h hv _ hi =>
    ⟨exec_gated_of_fails (.tail _ hi) h hv, fun _ hj => exec_gated_again_of_fails (.tail _ hj) h hv⟩

/-! The plaintext fields, by the verdict (R201 to R208) -/

/-- Settles O38: past the gate each rule is a window of PLAIN with a sentinel, and every scale fits. -/
theorem v8FieldsComplete : Obligations.V8FieldsComplete := by
  refine ⟨rfl, rfl, rfl, rfl, rfl, rfl, rfl, fun s t h ht => ?_⟩
  subst ht
  refine ⟨fun hv => ⟨?temp, ?humid, ?press, ?txpwr, ?batt, ?move, ?seq⟩,
    fun hv i hi => exec_gated_of_fails (.tail _ hi) h hv⟩
  case temp =>
    rw [exec_read_of_rule (f := .v8) rfl h rfl, v8Temp, plainGate_of_passes hv,
      finish_fieldS16_sentinel _ _ _ (by decide), add_zero]
    rfl
  case humid =>
    rw [exec_read_of_rule (f := .v8) rfl h rfl, v8Humid, plainGate_of_passes hv,
      finish_fieldU16_sentinel _ _ _ (by decide), add_zero]
    rfl
  case press =>
    rw [exec_read_of_rule (f := .v8) rfl h rfl, v8Press, plainGate_of_passes hv,
      finish_fieldU16_sentinel _ _ _ (by decide)]
    rfl
  case txpwr =>
    rw [exec_read_of_rule (f := .v8) rfl h rfl, v8Txpwr, plainGate_of_passes hv,
      finish_fieldBM_sentinel (powerWord_low5 _) _ (by decide)]
    rfl
  case batt =>
    rw [exec_read_of_rule (f := .v8) rfl h rfl, v8Batt, plainGate_of_passes hv,
      finish_fieldBM_sentinel (powerWord_high11 _) _ (by decide)]
    rfl
  case move =>
    rw [exec_read_of_rule (f := .v8) rfl h rfl, v8Move, plainGate_of_passes hv,
      finish_fieldU16_sentinel _ _ _ (by decide), add_zero]
    rfl
  case seq =>
    rw [exec_read_of_rule (f := .v8) rfl h rfl, v8Seq, plainGate_of_passes hv,
      finish_fieldU16_sentinel _ _ _ (by decide), add_zero]
    rfl

/-! The cleartext asymmetry (R211) -/

/-- A decrypted CRC that differs from PAYLOAD[17] is the verdict FAILED (R192, R193). -/
theorem ensurePlain_crypt_of_mismatch {s : State} (hcrypt : s.inst.crypt = cryptNotEvaluated)
    (hcrc : crc8 s.cfg.crcTable
      (decryptBlock s.cfg.cipher (deriveKey s.passwd s.devid) (cipherBlock s.payload)).toList ≠ s.payload[17]) :
    (ensurePlain s).inst.crypt = cryptFailed := by
  rw [ensurePlain_of_notEvaluated hcrypt, stages_eq rfl rfl rfl]
  exact if_neg hcrc

/-- READ.ADDR on V8 is the address rule on PAYLOAD[18..23], with no gate (R209). -/
theorem exec_readAddr_v8 {s : State} (h : hasInstance 0x08 s) :
    exec .readAddr s = .next (afterAddress (addressBytes s.payload 18 (by decide)) s) := by
  obtain ⟨-, address⟩ := addressReadsComplete
  rw [addressBytes_eq, (address s).1 (.inr h)]

/-- Settles O41: the mismatch fails the gate, and the address rule reads its six payload bytes only. -/
theorem cleartextAsymmetry : Obligations.CleartextAsymmetry := by
  intro s h hcrypt hcrc
  have failed : (ensurePlain s).inst.crypt = cryptFailed := ensurePlain_crypt_of_mismatch hcrypt hcrc
  refine ⟨fun i hi => ⟨_, exec_gated_of_fails hi h (by rw [failed]; decide), rfl, failed⟩, fun u hu bytes => ?_⟩
  have sameAddress : addressBytes u.payload 18 (by decide) = addressBytes s.payload 18 (by decide) :=
    congrArg Vector.ofFn (funext fun j : Fin 6 => by simpa only [Nat.add_comm] using bytes j)
  refine ⟨_, _, exec_readAddr_v8 h, exec_readAddr_v8 hu, ?_, ?_, rfl⟩ <;> rw [sameAddress] <;> rfl

end Sys2Proof.Machine
end

section
/-! PROOFS. The control commands (R215, R216): both complete with no reading, CLEAR on the cleared core. -/

namespace Sys2Proof.Machine

/-- NOP is the normal completion with no reading and nothing else (R215). -/
theorem exec_nop (s : State) : exec .nop s = .next (afterReading false 0 0 false s) := by
  have dispatched : exec .nop s = .next (finish noReading s) := rfl
  rw [dispatched, finish_noReading]

/-- CLEAR is the normal completion with no reading on the cleared core (R216). -/
theorem exec_clear (s : State) : exec .clear s = .next (afterReading false 0 0 false (clearCore s)) := by
  have dispatched : exec .clear s = .next (finish noReading (clearCore s)) := rfl
  rw [dispatched, finish_noReading]

/-- What the cleared core holds once the completion has written the outputs: the registers CLEAR names at their reset values,
every other kept (R216). -/
theorem afterReading_clearCore (s : State) :
    afterReading false 0 0 false (clearCore s) =
      { s with
        inst := ⟨false, 0⟩, fmt := 0
        key := Vector.replicate 16 0, plain := Vector.replicate 16 0, crcCalc := 0
        addrOut := Vector.replicate 6 0, errlog := 0
        status := ⟨0, false, false⟩, result := 0, raw := 0 } := rfl

/-- Settles O14: NOP's opcode takes no argument, and the command is the completion alone. -/
theorem nopCompletes : Obligations.NopCompletes :=
  ⟨rfl, fun _ => decode_ne_ok_of_argument (by decide), exec_nop⟩

/-- Settles O15: CLEAR's opcode takes no argument, and the command is the completion on the cleared core. -/
theorem clearCompletes : Obligations.ClearCompletes :=
  ⟨rfl, fun _ => decode_ne_ok_of_argument (by decide), fun s => by rw [exec_clear, afterReading_clearCore]⟩

end Sys2Proof.Machine
end

section
/-! PROOFS. The error completions (R225, R227, R232 to R234): an illegal word, a READ or VERIFY without an instance or without
the field, and which command raises which code. -/

namespace Sys2Proof.Machine

/-! An illegal word (R232) -/

/-- A word that is no command's is decoded to an error (R83). -/
theorem decode_error_of_illegal {w : Half} (h : ∀ i, decode w ≠ .ok i) : ∃ e, decode w = .error e := by
  cases hd : decode w with
  | ok i => exact absurd hd (h i)
  | error e => exact ⟨e, rfl⟩

/-- Settles O4: the word decodes to an error, and the step of such a word is the error completion. -/
theorem illegalWordOnlyReports : Obligations.IllegalWordOnlyReports := by
  intro s op rest h illegal
  obtain ⟨e, hd⟩ := decode_error_of_illegal illegal
  obtain ⟨-, reports, -⟩ := stepRunsDecodedCommand s op rest h
  exact reports e hd

/-! A READ that finds no instance or no field (R131, R233, R234) -/

/-- READ.ADDR is the one READ that is not a value read (R86). -/
theorem fieldOf_valueRead {i : Instr} (h : i ∈ valueReads) : ∃ field, fieldOf i = some field ∧ field ≠ .addr := by
  simp only [valueReads, List.mem_cons, List.not_mem_nil, or_false] at h
  rcases h with rfl | rfl | rfl | rfl | rfl | rfl | rfl | rfl | rfl | rfl <;> exact ⟨_, rfl, nofun⟩

theorem exec_read_of_no_instance {i : Instr} {field : Field} {s : State} (hi : fieldOf i = some field)
    (hc : s.inst.constructed = false) : exec i s = .next (raiseError .notConstructed (clearAddrOut field s)) := by
  rw [exec_read hi]
  rcases readField_cases field s with ⟨-, e⟩ | ⟨hn, -⟩ | ⟨f, rule, hn, -⟩
  · rw [e]
  · cases hc.symm.trans hn
  · cases hc.symm.trans hn.1

/-- A READ where the table of R130 says "no". -/
theorem exec_read_of_no_rule {i : Instr} {field : Field} {f : Format} {s : State} (hi : fieldOf i = some field)
    (h : hasInstance (formatTag f) s) (hr : layoutRule field f = none) :
    exec i s = .next (raiseError .notInFormat (clearAddrOut field s)) := by
  rw [exec_read hi]
  rcases readField_cases field s with ⟨hn, -⟩ | ⟨-, -, e⟩ | ⟨g, rule, hg, hrule, -⟩
  · cases hn.symm.trans h.1
  · rw [e]
  · have hfg : f = g := Option.some.inj ((formatOfTag_eq_some.mpr h.2).symm.trans (formatOfTag_eq_some.mpr hg.2))
    subst hfg
    cases hr.symm.trans hrule

/-- Settles O27: VERIFY, the value reads, which leave ADDR_OUT alone, and READ.ADDR, which zeroes it. -/
theorem readWithoutInstance : Obligations.ReadWithoutInstance := by
  refine fun s hc => ⟨fun i hi => ?_, exec_read_of_no_instance (field := .addr) rfl hc⟩
  rcases List.mem_cons.mp hi with rfl | hread
  · exact exec_verify_of_no_instance hc
  · obtain ⟨field, hfield, hne⟩ := fieldOf_valueRead hread
    rw [exec_read_of_no_instance hfield hc, clearAddrOut_of_ne hne]
    rfl

/-- The three fields V3 lacks besides the address (R130). -/
theorem fieldOf_missing_v3 {i : Instr} (h : i ∈ [Instr.readTxpwr, .readMove, .readSeq]) :
    ∃ field, fieldOf i = some field ∧ field ≠ .addr ∧ layoutRule field .v3 = none := by
  simp only [List.mem_cons, List.not_mem_nil, or_false] at h
  rcases h with rfl | rfl | rfl <;> exact ⟨_, rfl, nofun, rfl⟩

/-- The accelerations, which C5 and V8 lack (R130). -/
theorem fieldOf_acceleration {i : Instr} (h : i ∈ [Instr.readAccx, .readAccy, .readAccz]) :
    ∃ field, fieldOf i = some field ∧ field ≠ .addr ∧ layoutRule field .c5 = none ∧ layoutRule field .v8 = none := by
  simp only [List.mem_cons, List.not_mem_nil, or_false] at h
  rcases h with rfl | rfl | rfl <;> exact ⟨_, rfl, nofun, rfl, rfl⟩

/-- Settles O28: the "no" entries of R130, format by format, then VERIFY. -/
theorem readFieldNotInFormat : Obligations.ReadFieldNotInFormat := by
  refine fun s hc => ⟨fun hf i hi => ?v3, fun hf => ?v3Addr, fun hf i hi => ?acceleration,
    fun hf => exec_verify_of_other_format hc hf⟩
  case v3 =>
    obtain ⟨field, hfield, hne, hrule⟩ := fieldOf_missing_v3 hi
    rw [exec_read_of_no_rule (f := .v3) hfield ⟨hc, hf⟩ hrule, clearAddrOut_of_ne hne]
    rfl
  case v3Addr => exact exec_read_of_no_rule (field := .addr) (f := .v3) rfl ⟨hc, hf⟩ rfl
  case acceleration =>
    obtain ⟨field, hfield, hne, hruleC5, hruleV8⟩ := fieldOf_acceleration hi
    rcases hf with hf | hf
    · rw [exec_read_of_no_rule (f := .c5) hfield ⟨hc, hf⟩ hruleC5, clearAddrOut_of_ne hne]
      rfl
    · rw [exec_read_of_no_rule (f := .v8) hfield ⟨hc, hf⟩ hruleV8, clearAddrOut_of_ne hne]
      rfl

/-! The codes (R225) -/

/-- The commands that may raise a code, by the table of R225; INTEGRITY only on a V8 instance. -/
def MayRaise (i : Instr) (s : State) : ErrCode → Prop
  | .noDecoder | .needsCredentials => i = .select
  | .badCredentials => i = .constructV8
  | .formatMismatch => i ∈ constructCommands
  | .integrity => i ∈ Instr.verify :: plaintextReads ∧ s.fmt = 0x08
  | .notConstructed | .notInFormat => i ∈ Instr.verify :: Instr.readAddr :: valueReads
  | .illegalCommand => False

/-- A command completes without an error, or with one that the table gives it (R225). -/
theorem exec_raises {i : Instr} {s t : State} (h : exec i s = .next t) :
    t.status.err = 0 ∨ ∃ e, t.status.err = errField e ∧ MayRaise i s e := by
  have failedRead {e} (he : e = .notConstructed ∨ e = .notInFormat)
      (hi : i ∈ Instr.verify :: Instr.readAddr :: valueReads) : MayRaise i s e := by
    rcases he with rfl | rfl <;> exact hi
  rcases exec_shapes i s with ⟨r, -, -, e⟩ | ⟨-, e⟩ | ⟨f, -, -, -, e⟩ | ⟨x, hx, e⟩ | ⟨a, -, -, e⟩ | ⟨x, hx, hi, e⟩ |
      ⟨x, hx, hi, e⟩ | ⟨r, -, -, -, -, e⟩ | ⟨hi, h8, -, e⟩ <;> cases e.symm.trans h
  · exact .inl rfl
  · exact .inl rfl
  · exact .inl rfl
  · refine .inr ⟨x, rfl, ?_⟩
    rcases hx with ⟨hi, rfl | rfl⟩ | ⟨hi, rfl⟩ | ⟨hi, rfl⟩ <;> exact hi
  · exact .inl rfl
  · refine .inr ⟨x, rfl, failedRead hx ?_⟩
    rcases List.mem_cons.mp hi with rfl | hi
    · exact .head _
    · exact .tail _ (.tail _ hi)
  · exact .inr ⟨x, rfl, failedRead hx (hi ▸ .tail _ (.head _))⟩
  · exact .inl rfl
  · exact .inr ⟨.integrity, rfl, hi, h8.2⟩

/-- A code in STATUS is one the table gives the command (R225). -/
theorem exec_mayRaise {i : Instr} {s t : State} (h : exec i s = .next t) {e : ErrCode} (he : t.status.err = errField e) :
    MayRaise i s e := by
  rcases exec_raises h with hz | ⟨e', he', hraise⟩
  · exact absurd (he.symm.trans hz) (errField_ne_zero e)
  · exact errField_injective (he'.symm.trans he) ▸ hraise

/-- No command raises ILLEGAL_COMMAND, code 8, nor a code above it (R225, R232). -/
theorem exec_err_le {i : Instr} {s t : State} (h : exec i s = .next t) : t.status.err.toNat ≤ 7 := by
  rcases exec_raises h with hz | ⟨e, he, hraise⟩
  · rw [hz]
    decide
  · rw [he, errField_toNat]
    cases e with
    | illegalCommand => exact hraise.elim
    | _ => decide

/-- Settles O49: the table's row of each code, the sticky bit by the invariant of the output registers, then the illegal
word. -/
theorem errorCodesByCommand : Obligations.ErrorCodesByCommand := by
  refine ⟨fun i s t hx => ?command, fun op s t illegal hx => ?illegalWord⟩
  case command =>
    obtain ⟨u, -, hc⟩ := exec_completes hx
    exact ⟨exec_err_le hx, exec_mayRaise hx (e := .noDecoder), exec_mayRaise hx (e := .needsCredentials),
      exec_mayRaise hx (e := .badCredentials), exec_mayRaise hx (e := .formatMismatch),
      exec_mayRaise hx (e := .integrity), exec_mayRaise hx (e := .notConstructed),
      exec_mayRaise hx (e := .notInFormat), fun hne => (hc.statusInv.error_outputs hne).2.2⟩
  case illegalWord =>
    obtain ⟨e, hd⟩ := decode_error_of_illegal illegal
    cases (startCommand_illegal hd).symm.trans hx
    exact ⟨rfl, errBit_getLsbD .illegalCommand s.errlog⟩

end Sys2Proof.Machine
end

section
/-! PROOFS. The register bytes a command writes (R88): each operation changes the bytes of its registers only, and the rule of
the command's row may write those. -/

namespace Sys2Proof.Machine

/-- From s to t no register byte outside p changes, as the core reads it (R9). -/
def ChangesOnly (p : Loc → Bool) (s t : State) : Prop := ∀ l, p l = false → peek t l = peek s l

theorem ChangesOnly.refl (p : Loc → Bool) (s : State) : ChangesOnly p s s := fun _ _ => rfl

theorem ChangesOnly.trans {p : Loc → Bool} {s t u : State} (hst : ChangesOnly p s t) (htu : ChangesOnly p t u) :
    ChangesOnly p s u := fun l hl => (htu l hl).trans (hst l hl)

theorem ChangesOnly.mono {p q : Loc → Bool} {s t : State} (h : ChangesOnly p s t) (hpq : ∀ l, p l = true → q l = true) :
    ChangesOnly q s t := fun l hl => h l (Bool.eq_false_iff.mpr fun hp => Bool.eq_false_iff.mp hl (hpq l hp))

/-! The bytes each operation changes -/

theorem changesOnly_finish (r : Reading) (s : State) : ChangesOnly isOutput s (finish r s) := by
  intro l hl
  cases l with
  | status | result | raw => cases hl
  | _ => rfl

theorem changesOnly_raiseError (e : ErrCode) (s : State) :
    ChangesOnly (fun l => isOutput l || l == .errlog) s (raiseError e s) := by
  intro l hl
  cases l with
  | status | result | raw | errlog => cases hl
  | _ => rfl

theorem changesOnly_discardInstance (s : State) : ChangesOnly isInstanceState s (discardInstance s) := by
  intro l hl
  cases l with
  | fmt | inst => cases hl
  | _ => rfl

theorem changesOnly_openInstance (tag : Byte) (s : State) : ChangesOnly isInstanceState s (openInstance tag s) := by
  intro l hl
  cases l with
  | fmt | inst => cases hl
  | _ => rfl

theorem changesOnly_setAddrOut (a : Vector Byte 6) (s : State) : ChangesOnly isAddrOut s (setAddrOut a s) := by
  intro l hl
  cases l with
  | addrOut => cases hl
  | _ => rfl

theorem changesOnly_ensurePlain (s : State) : ChangesOnly isCryptState s (ensurePlain s) := by
  intro l hl
  cases l with
  | key | plain | crcCalc | inst => cases hl
  | _ => simp [peek]

theorem changesOnly_clearCore (s : State) : ChangesOnly (mayWrite .clear) s (clearCore s) := by
  intro l hl
  cases l with
  | fmt | inst | key | plain | crcCalc | addrOut | errlog => cases hl
  | _ => rfl

/-! The bytes a command's rule writes -/

theorem mayWrite_of_isOutput (i : Instr) {l : Loc} (h : isOutput l = true) : mayWrite i l = true := by
  cases i <;> simp [mayWrite, h]

theorem mayWrite_of_isInstanceState {i : Instr} (hi : i ∈ Instr.select :: constructCommands) {l : Loc}
    (h : isInstanceState l = true) : mayWrite i l = true := by
  simp only [constructCommands, List.mem_cons, List.not_mem_nil, or_false] at hi
  rcases hi with rfl | rfl | rfl | rfl | rfl <;> simp [mayWrite, h]

theorem mayWrite_of_isAddrOut {l : Loc} (h : isAddrOut l = true) : mayWrite .readAddr l = true := by
  simp [mayWrite, h]

theorem mayWrite_of_isCryptState {i : Instr} (hi : i ∈ Instr.verify :: plaintextReads) {l : Loc}
    (h : isCryptState l = true) : mayWrite i l = true := by
  simp only [plaintextReads, List.mem_cons, List.not_mem_nil, or_false] at hi
  rcases hi with rfl | rfl | rfl | rfl | rfl | rfl | rfl | rfl <;> simp [mayWrite, h]

/-- A command with a code in the table of R225 may write its sticky bit (R227). -/
theorem mayWrite_errlog {i : Instr} {s : State} {e : ErrCode} (h : MayRaise i s e) : mayWrite i .errlog = true := by
  have select : mayWrite .select .errlog = true := rfl
  have constructs : ∀ i ∈ constructCommands, mayWrite i .errlog = true := by decide
  have gated : ∀ i ∈ Instr.verify :: plaintextReads, mayWrite i .errlog = true := by decide
  have reads : ∀ i ∈ Instr.verify :: Instr.readAddr :: valueReads, mayWrite i .errlog = true := by decide
  cases e with
  | noDecoder | needsCredentials => exact h ▸ select
  | badCredentials => exact constructs i (h ▸ by decide)
  | formatMismatch => exact constructs i h
  | integrity => exact gated i h.1
  | notConstructed | notInFormat => exact reads i h
  | illegalCommand => exact h.elim

/-! A command as what it does before its completion, then the completion (R226, R227) -/

theorem ChangesOnly.finish {i : Instr} {s u : State} (h : ChangesOnly (mayWrite i) s u) (r : Reading) :
    ChangesOnly (mayWrite i) s (finish r u) :=
  h.trans ((changesOnly_finish r u).mono fun _ => mayWrite_of_isOutput i)

theorem ChangesOnly.raiseError {i : Instr} {s u : State} (h : ChangesOnly (mayWrite i) s u) {e : ErrCode}
    (hx : exec i s = .next (raiseError e u)) : ChangesOnly (mayWrite i) s (raiseError e u) := by
  refine h.trans ((changesOnly_raiseError e u).mono fun l hl => ?_)
  rcases Bool.or_eq_true_iff.mp hl with hout | herr
  · exact mayWrite_of_isOutput i hout
  · exact eq_of_beq herr ▸ mayWrite_errlog (exec_mayRaise hx rfl)

/-- A command changes only the bytes that its row's rule writes, each of its nine shapes (R88). -/
theorem exec_changesOnly {i : Instr} {s t : State} (h : exec i s = .next t) : ChangesOnly (mayWrite i) s t := by
  have kept : ChangesOnly (mayWrite i) s s := .refl _ s
  have discarded (hi : i ∈ Instr.select :: constructCommands) : ChangesOnly (mayWrite i) s (discardInstance s) :=
    (changesOnly_discardInstance s).mono fun _ => mayWrite_of_isInstanceState hi
  have addressed (hi : i = .readAddr) (a : Vector Byte 6) : ChangesOnly (mayWrite i) s (setAddrOut a s) :=
    (changesOnly_setAddrOut a s).mono fun _ hl => hi ▸ mayWrite_of_isAddrOut hl
  have gated (hi : i ∈ Instr.verify :: plaintextReads) : ChangesOnly (mayWrite i) s (ensurePlain s) :=
    (changesOnly_ensurePlain s).mono fun _ => mayWrite_of_isCryptState hi
  rcases exec_shapes i s with ⟨r, -, -, e⟩ | ⟨rfl, e⟩ | ⟨f, hi, -, -, e⟩ | ⟨x, hx, e⟩ | ⟨a, hi, -, e⟩ | ⟨x, -, -, e⟩ |
      ⟨x, -, hi, e⟩ | ⟨r, -, hi, -, -, e⟩ | ⟨hi, -, -, e⟩ <;> cases e.symm.trans h
  · exact kept.finish r
  · exact (changesOnly_clearCore s).finish noReading
  · have opened := (changesOnly_openInstance (formatTag f) (discardInstance s)).mono fun _ => mayWrite_of_isInstanceState hi
    exact ((discarded hi).trans opened).finish noReading
  · have hi : i ∈ Instr.select :: constructCommands := by
      rcases hx with ⟨rfl, -⟩ | ⟨rfl, -⟩ | ⟨hi, -⟩
      · exact .head _
      · decide
      · exact .tail _ hi
    exact (discarded hi).raiseError h
  · exact (addressed hi a).finish _
  · exact kept.raiseError h
  · exact (addressed hi zeroAddress).raiseError h
  · exact (gated hi).finish r
  · exact (gated hi).raiseError h

/-- The host reads an address from the byte the core reads there (R51, R57). -/
theorem busRead_congr {s t : State} {a : Byte} (h : peek t (locOf a) = peek s (locOf a)) : busRead t a = busRead s a := by
  simp only [busRead, h]

/-- Settles O13: the core's reads by the shapes of a command, the host's from the core's. -/
theorem commandFootprint : Obligations.CommandFootprint :=
  fun _ _ _ hx => ⟨exec_changesOnly hx, fun a ha => busRead_congr (exec_changesOnly hx (locOf a) ha)⟩

end Sys2Proof.Machine
end

section
/-! PROOFS. The end of a host program (R266, R267, R272): each step serves one action, and with none left the core is idle. -/

namespace Sys2Proof.Machine

/-- As many steps as there are pending actions serve them all. -/
theorem run_serves_pending (s : State) :
    ∃ t : State, Host.Core.run Sys2Proof.core s.pending.length s = .next t ∧ t.pending = [] := by
  induction hp : s.pending generalizing s with
  | nil => exact ⟨s, rfl, hp⟩
  | cons a rest ih =>
    obtain ⟨u, hstep⟩ := step_answers s
    have hrest : u.pending = rest := by rw [(step_serves_one hstep).1, hp, List.tail_cons]
    obtain ⟨t, hrun, hdone⟩ := ih u hrest
    exact ⟨t, (core_run_succ hstep _).trans hrun, hdone⟩

/-- From a state with no action pending, steps change the bus's answer only (R267; log entries 1 and 2). -/
theorem run_idle {s : State} (h : s.pending = []) (n : Nat) :
    Host.Core.run Sys2Proof.core (n + 1) s = .next { s with response := .idle } := by
  induction n generalizing s with
  | zero => exact core_run_succ (step_idle h) 0
  | succ n ih => exact (core_run_succ (step_idle h) (n + 1)).trans (ih (s := { s with response := .idle }) h)

/-- Settles O7: the pending actions are served one by one, and what is left is idle. -/
theorem hostProgramEnds : Obligations.HostProgramEnds := by
  intro s
  obtain ⟨t, hrun, hdone⟩ := run_serves_pending s
  exact ⟨t, hrun, hdone, run_idle hdone⟩

end Sys2Proof.Machine
end

section
/-! PROOFS. Reset (R260, R261): what a step that serves `rst` leaves, what each register byte and each address then reads, and
that the state after reset meets the two invariants every step keeps. -/

namespace Sys2Proof.Machine

/-- A step that serves `rst` (R260; log entry 10). -/
theorem step_reset {s : State} {rest : List HostAction} (h : s.pending = .reset :: rest) :
    step s = .next { State.reset with pending := rest, cfg := s.cfg } := step_serve h

/-- After reset each register byte is 0 but those of the constant MANUF_ID (R37, R260). -/
theorem peek_reset (l : Loc) :
    peek State.reset l = if l = .manufId 0 then 0x04 else if l = .manufId 1 then 0x99 else 0x00 := by
  cases l with
  | payload i | devid i | passwd i | addrOut i | key i | plain i => exact Vector.getElem_replicate i.isLt
  | opa i | opmask i | opinv i | opoff i | opmul i | result i | raw i => exact BitVec.extractLsb'_zero
  | manufId i => revert i; decide
  | _ => rfl

/-- After reset the host reads what the core reads at every address: KEY, which it cannot read, is 0 (R57, R260). -/
theorem busRead_reset (a : Byte) : busRead State.reset a = peek State.reset (locOf a) := by
  by_cases h : accessOf (locOf a) = .noAccess
  · have hid (i : Fin 2) : locOf a ≠ .manufId i := fun hl => by rw [hl] at h; cases h
    rw [busRead_of_noAccess h, peek_reset, if_neg (hid 0), if_neg (hid 1)]
  · exact busRead_at rfl h State.reset

/-- MANUF_ID stands at two addresses (R51). -/
theorem locOf_eq_manufId (i : Fin 2) (a : Byte) : locOf a = .manufId i ↔ a = BitVec.ofNat 8 (0x66 + i.val) := by
  have hloc : locOf (BitVec.ofNat 8 (0x66 + i.val)) = .manufId i := by revert i; decide
  exact ⟨fun h => locOf_injective (h.trans hloc.symm) (by rw [h]; nofun), fun h => h ▸ hloc⟩

/-- Settles O50: the step that serves `rst`, then the reset state by register byte and by address. -/
theorem resetSetsEveryRegister : Obligations.ResetSetsEveryRegister := by
  refine ⟨fun s rest => step_reset, peek_reset, fun a => ?_⟩
  rw [busRead_reset, peek_reset]
  simp only [locOf_eq_manufId]
  rfl

theorem instanceInv_reset : InstanceInv State.reset := instanceInv_of_noInstance rfl rfl

theorem statusInv_reset : StatusInv State.reset where
  code_range := Nat.zero_le 8
  error_outputs h := absurd rfl h
  absent_outputs _ := ⟨rfl, rfl⟩

/-- Settles O10: no instance is there, no error is reported, and the outputs are 0. -/
theorem resetMeetsInvariants : Obligations.ResetMeetsInvariants := ⟨instanceInv_reset, statusInv_reset⟩

end Sys2Proof.Machine
end

section
/-! PROOFS. The raw value is recovered from RESULT (40_primitives.md section 4, "Round trip"): where the product fits, RESULT is
the product itself. -/

namespace Sys2Proof.Machine

/-- A value inside the s32 range survives the wrap (R7, R103). -/
theorem wrap32_toInt {v : Int} (h : overflows v = false) : (wrap32 v).toInt = v := by
  have hfits : ¬(v < -2147483648 ∨ 2147483647 < v) := of_decide_eq_false h
  exact BitVec.toInt_ofInt_eq_self (by decide) (by omega) (by omega)

/-- Without overflow RESULT is the exact fixed-point product (R102, R103). -/
theorem convert_result_toInt {value off mul : Int} {pat : Half} (h : (convert value pat off mul).ovf = false) :
    (convert value pat off mul).result.toInt = (value + off) * mul := wrap32_toInt h

/-- Settles O20: RESULT is the product, so dividing by the multiplier and taking the offset away gives the value back. -/
theorem decodeRoundTrip : Obligations.DecodeRoundTrip := by
  intro p mask sgn inv off mul hmul hinv hovf
  rw [decodeField_present sgn off mul hinv] at hovf ⊢
  rw [convert_result_toInt hovf, Int.mul_ediv_cancel _ hmul]
  exact ⟨Int.mul_emod_left _ mul, Int.add_sub_cancel _ off, rfl⟩

end Sys2Proof.Machine
end
